-- ==== Sys2Proof/Word.lean ====
section
/-! DEFINITION. The values the VCU works on: a byte is an unsigned 8-bit value (00_scope.md R16), a
nibble one hex digit of it, and a packed position or value is 16 bits (R13). -/

namespace Sys2Proof

/-- R16: an unsigned 8-bit value, bit 0 the least significant. -/
abbrev Byte := BitVec 8

/-- R16: the four bits of one hex digit. -/
abbrev Nibble := BitVec 4

/-- R13: a 16-bit unsigned value, carried as four packed digits. -/
abbrev Half := BitVec 16

end Sys2Proof
end

