-- ==== Sys2Proof/Syntax.lean ====
section
/-! DEFINITION. The syntax: message kinds (R88), codec ids (R30), parameter values (R33), the header
fields of a frame (R74), port requests (R101) and the instructions, one constructor per row of the
opcode table. -/

namespace Sys2Proof

/-- R88: the closed enumeration of message kinds, in id order, with the result `unknown` (id 0), which
no registry row holds (R34). -/
inductive Kind where
  | unknown
  | respByte
  | respP
  | respPQ
  | respPQRS
  | ptPosResp
  | ack
  | completion
  | error
  | camnumQuery
  | camnumReply
  | ptPosInq
  | zoomStop
  | zoomTele
  | zoomWide
  | zoomTeleVar
  | zoomWideVar
  | focusStop
  | focusFar
  | focusNear
  | focusFarVar
  | focusNearVar
  | ptDrive
  | memoryRecall
  | memorySet
  | clear
  | motionSync
  | presetSpeed
  | ptAbs
  | ptRel
  | ptHome
  | ptReset
  | cancel
  | menuEnter
  | menuReturn
  | menuMode
  | menuModeInq
  | brightPosDirect
  | brightPosInq
  | colorTempDirect
  | colorTempInq
  | flicker
  | flickerInq
  | gainLimit
  | gainLimitInq
  | wbMode
  | wbModeInq
  | focusAuto
  | focusManual
  | focusModeInq
  | aeMode
  | aeModeInq
  | apertureDirect
  | apertureInq
  | rgainDirect
  | rgainInq
  | bgainDirect
  | bgainInq
  | zoomDirect
  | zoomPosInq
  | focusDirect
  | focusPosInq
  | colorGainDirect
  | colorGainInq
  | shutterDirect
  | shutterInq
  | irisDirect
  | irisInq
  | colorHueDirect
  | colorHueInq
  | lrReverse
  | lrReverseInq
  | pictureEffect
  | pictureEffectInq
  | pictureFlip
  | pictureFlipInq
  | brightnessDirect
  | brightnessInq
  | contrastDirect
  | contrastInq
  | awbSens
  | awbSensInq
  deriving DecidableEq, Repr

/-- R30: the 16 codec ids, in the order of their numbers (R100). -/
inductive CodecId where
  | none
  | byteCmd
  | byteRsp
  | pCmd
  | pRsp
  | pqCmd
  | pqRsp
  | pqrsCmd
  | pqrsRsp
  | ptAbs
  | ptResp
  | ptDrive
  | socket
  | error
  | camnum
  | memory
  deriving DecidableEq, Repr

/-- R33: the nine variants of MessageParameters with the field widths of R13. -/
inductive Params where
  | none
  | oneByte (value : Byte)
  | twoByte (value : Half)
  | ptPosition (panSpeed tiltSpeed : Byte) (panPos tiltPos : Half)
  | ptDrive (panSpeed tiltSpeed panDir tiltDir : Byte)
  | socket (socket : Nibble)
  | errorReply (socket : Nibble) (code : Byte)
  | cameraNumber (index : Nibble)
  | memory (index mode : Byte)
  deriving DecidableEq, Repr

/-- The tag of a MessageParameters value (R33, R104). -/
inductive Shape where
  | none
  | oneByte
  | twoByte
  | ptPosition
  | ptDrive
  | socket
  | errorReply
  | cameraNumber
  | memory
  deriving DecidableEq, Repr

/-- R103: the direction flag of a CODEC request. -/
inductive Dir where
  | decode
  | encode
  deriving DecidableEq, Repr

/-- R74: the three fields of a header byte. The marker (bit 7) is 1 on every encoded frame and is
ignored on decode; it is kept here so that no bit of a received frame is dropped. -/
structure Header where
  marker : BitVec 1
  sender : BitVec 3
  receiver : BitVec 4
  deriving DecidableEq, Repr

/-- R51, R101, R110: the OUT buffer of a SERIALIZE or an ENCODE as its caller hands it in: its size in bytes, and
the first bytes it holds. A byte the caller gives no value for holds none (log entry 2). -/
structure OutBuffer where
  capacity : Nat
  held : List Byte
  deriving DecidableEq, Repr

/-- R101: a request record as it is presented at the port. The fields that R102 and R271 check stand as
plain naturals, since a presenter may give a value wider than the field; an operation reads only the
fields its row of R101 names, and the buffers its caller hands in (R51): `buf` is IN, `work` is WORK, and
`outHeld` holds the first bytes of OUT. `prm0` to `prm3` are the parameter fields in the order of R33's table. -/
structure PortRequest where
  op : BitVec 3
  buf : List Byte := []
  sender : Byte := 0
  receiver : Byte := 0
  payload : List Byte := []
  outCapacity : Nat := 0
  outHeld : List Byte := []
  kind : Nat := 0
  dir : Nat := 0
  codec : Nat := 0
  work : List Byte := []
  tag : Nat := 0
  prm0 : Nat := 0
  prm1 : Nat := 0
  prm2 : Nat := 0
  prm3 : Nat := 0
  deriving DecidableEq, Repr

/-- An instruction as the hardware holds it: the bytes of a frame on the wire (R73), or a request record
at the port (R101). -/
inductive Code where
  | wire (bytes : List Byte)
  | port (request : PortRequest)
  deriving DecidableEq, Repr

/-- Why a byte stream does not begin with a frame of the opcode table (R89). -/
inductive WireReject where
  /-- No terminator yet (R106). -/
  | incomplete
  /-- The first 0xFF stands at index 0 (R107). -/
  | terminatorAtZero
  /-- The payload matches no row of the table (R89). -/
  | noRow
  deriving DecidableEq, Repr

/-- Why a port request is refused (R102, R271). -/
inductive PortReject where
  /-- `op = 7` names no operation. -/
  | opField
  /-- The codec field is not a codec id. -/
  | codecField
  /-- `dir > 1`. -/
  | dirField
  /-- A kind id above 81. -/
  | kindField
  /-- A MessageParameters tag above 8. -/
  | tagField
  /-- A MessageParameters field wider than its declared width. -/
  | paramField
  deriving DecidableEq, Repr

/-- The instructions: the 82 message rows of the registry, each a received frame with its header fields
and the parameter fields of its codec (R80), then the seven request operations of R101 with their
operands. A row's docstring names its registry row and rule. -/
inductive Instr where
  /-- Row 0, R173: generic one-byte-value inquiry response. -/
  | respByte (h : Header) (value : Byte)
  /-- Row 1, R174: generic low-nibble inquiry response. -/
  | respP (h : Header) (value : Nibble)
  /-- Row 2, R175: generic two-nibble packed inquiry response. -/
  | respPQ (h : Header) (value : Byte)
  /-- Row 3, R176: generic four-nibble packed inquiry response. -/
  | respPQRS (h : Header) (value : Half)
  /-- Row 4, R177: pan-tilt position inquiry response. -/
  | ptPosResp (h : Header) (panPos tiltPos : Half)
  /-- Row 5, R178: acknowledge. -/
  | ack (h : Header) (socket : Nibble)
  /-- Row 6, R179: completion. -/
  | completion (h : Header) (socket : Nibble)
  /-- Row 7, R180: error reply. -/
  | error (h : Header) (socket : Nibble) (code : Byte)
  /-- Row 8, R181: camera-number query (address set). -/
  | camnumQuery (h : Header)
  /-- Row 9, R182: camera-number reply. -/
  | camnumReply (h : Header) (index : Nibble)
  /-- Row 10, R183: pan-tilt position inquiry. -/
  | ptPosInq (h : Header)
  /-- Row 11, R184: zoom stop. -/
  | zoomStop (h : Header)
  /-- Row 12, R185: zoom tele, fixed (standard) speed. -/
  | zoomTele (h : Header)
  /-- Row 13, R186: zoom wide, fixed (standard) speed. -/
  | zoomWide (h : Header)
  /-- Row 14, R187: zoom tele, variable speed p. -/
  | zoomTeleVar (h : Header) (value : Nibble)
  /-- Row 15, R188: zoom wide, variable speed p. -/
  | zoomWideVar (h : Header) (value : Nibble)
  /-- Row 16, R189: focus stop. -/
  | focusStop (h : Header)
  /-- Row 17, R190: focus far, fixed (standard) speed. -/
  | focusFar (h : Header)
  /-- Row 18, R191: focus near, fixed (standard) speed. -/
  | focusNear (h : Header)
  /-- Row 19, R192: focus far, variable speed p. -/
  | focusFarVar (h : Header) (value : Nibble)
  /-- Row 20, R193: focus near, variable speed p. -/
  | focusNearVar (h : Header) (value : Nibble)
  /-- Row 21, R194: pan-tilt drive (speeds vv ww, directions xx yy). -/
  | ptDrive (h : Header) (panSpeed tiltSpeed panDir tiltDir : Byte)
  /-- Row 22, R195: memory (preset) recall, mode byte 02. -/
  | memoryRecall (h : Header) (index : Byte)
  /-- Row 23, R196: memory (preset) set, mode byte 01. -/
  | memorySet (h : Header) (index : Byte)
  /-- Row 24, R197: interface clear. -/
  | clear (h : Header)
  /-- Row 25, R198: motion-sync mode (vendor extension). -/
  | motionSync (h : Header) (value : Byte)
  /-- Row 26, R199: preset-recall speed (vendor extension). -/
  | presetSpeed (h : Header) (value : Byte)
  /-- Row 27, R200: absolute pan-tilt position. -/
  | ptAbs (h : Header) (panSpeed tiltSpeed : Byte) (panPos tiltPos : Half)
  /-- Row 28, R201: relative pan-tilt position. -/
  | ptRel (h : Header) (panSpeed tiltSpeed : Byte) (panPos tiltPos : Half)
  /-- Row 29, R202: pan-tilt home. -/
  | ptHome (h : Header)
  /-- Row 30, R203: pan-tilt reset. -/
  | ptReset (h : Header)
  /-- Row 31, R204: cancel the command in socket z. -/
  | cancel (h : Header) (socket : Nibble)
  /-- Row 32, R205: menu enter. -/
  | menuEnter (h : Header)
  /-- Row 33, R206: menu enter, vendor-specific variant (second row of kind MENU_ENTER). -/
  | menuEnterVariant (h : Header)
  /-- Row 34, R207: menu return. -/
  | menuReturn (h : Header)
  /-- Row 35, R208: menu mode (on/off byte). -/
  | menuMode (h : Header) (value : Byte)
  /-- Row 36, R209: menu mode inquiry. -/
  | menuModeInq (h : Header)
  /-- Row 37, R210: brightness-position (exposure bright) direct. -/
  | brightPosDirect (h : Header) (value : Half)
  /-- Row 38, R211: brightness-position inquiry. -/
  | brightPosInq (h : Header)
  /-- Row 39, R212: color-temperature direct. -/
  | colorTempDirect (h : Header) (value : Byte)
  /-- Row 40, R213: color-temperature inquiry. -/
  | colorTempInq (h : Header)
  /-- Row 41, R214: flicker mode. -/
  | flicker (h : Header) (value : Nibble)
  /-- Row 42, R215: flicker mode inquiry. -/
  | flickerInq (h : Header)
  /-- Row 43, R216: gain limit. -/
  | gainLimit (h : Header) (value : Nibble)
  /-- Row 44, R217: gain limit inquiry. -/
  | gainLimitInq (h : Header)
  /-- Row 45, R218: white-balance mode. -/
  | wbMode (h : Header) (value : Nibble)
  /-- Row 46, R219: white-balance mode inquiry. -/
  | wbModeInq (h : Header)
  /-- Row 47, R220: focus mode auto. -/
  | focusAuto (h : Header)
  /-- Row 48, R221: focus mode manual. -/
  | focusManual (h : Header)
  /-- Row 49, R222: focus mode inquiry. -/
  | focusModeInq (h : Header)
  /-- Row 50, R223: auto-exposure mode. -/
  | aeMode (h : Header) (value : Byte)
  /-- Row 51, R224: auto-exposure mode inquiry. -/
  | aeModeInq (h : Header)
  /-- Row 52, R225: aperture direct. -/
  | apertureDirect (h : Header) (value : Half)
  /-- Row 53, R226: aperture inquiry. -/
  | apertureInq (h : Header)
  /-- Row 54, R227: R-gain direct. -/
  | rgainDirect (h : Header) (value : Half)
  /-- Row 55, R228: R-gain inquiry. -/
  | rgainInq (h : Header)
  /-- Row 56, R229: B-gain direct. -/
  | bgainDirect (h : Header) (value : Half)
  /-- Row 57, R230: B-gain inquiry. -/
  | bgainInq (h : Header)
  /-- Row 58, R231: zoom position direct. -/
  | zoomDirect (h : Header) (value : Half)
  /-- Row 59, R232: zoom position inquiry. -/
  | zoomPosInq (h : Header)
  /-- Row 60, R233: focus position direct. -/
  | focusDirect (h : Header) (value : Half)
  /-- Row 61, R234: focus position inquiry. -/
  | focusPosInq (h : Header)
  /-- Row 62, R235: color gain direct. -/
  | colorGainDirect (h : Header) (value : Half)
  /-- Row 63, R236: color gain inquiry. -/
  | colorGainInq (h : Header)
  /-- Row 64, R237: shutter direct. -/
  | shutterDirect (h : Header) (value : Half)
  /-- Row 65, R238: shutter inquiry. -/
  | shutterInq (h : Header)
  /-- Row 66, R239: iris direct. -/
  | irisDirect (h : Header) (value : Half)
  /-- Row 67, R240: iris inquiry. -/
  | irisInq (h : Header)
  /-- Row 68, R241: color hue direct. -/
  | colorHueDirect (h : Header) (value : Half)
  /-- Row 69, R242: color hue inquiry. -/
  | colorHueInq (h : Header)
  /-- Row 70, R243: left-right reverse. -/
  | lrReverse (h : Header) (value : Byte)
  /-- Row 71, R244: left-right reverse inquiry. -/
  | lrReverseInq (h : Header)
  /-- Row 72, R245: picture effect. -/
  | pictureEffect (h : Header) (value : Byte)
  /-- Row 73, R246: picture effect inquiry. -/
  | pictureEffectInq (h : Header)
  /-- Row 74, R247: picture flip. -/
  | pictureFlip (h : Header) (value : Byte)
  /-- Row 75, R248: picture flip inquiry. -/
  | pictureFlipInq (h : Header)
  /-- Row 76, R249: brightness (image) direct. -/
  | brightnessDirect (h : Header) (value : Half)
  /-- Row 77, R250: brightness (image) inquiry. -/
  | brightnessInq (h : Header)
  /-- Row 78, R251: contrast direct. -/
  | contrastDirect (h : Header) (value : Half)
  /-- Row 79, R252: contrast inquiry. -/
  | contrastInq (h : Header)
  /-- Row 80, R253: auto-white-balance sensitivity. -/
  | awbSens (h : Header) (value : Nibble)
  /-- Row 81, R254: auto-white-balance sensitivity inquiry. -/
  | awbSensInq (h : Header)
  /-- Op 0, R105: find one frame at the front of a buffer. -/
  | extract (buf : List Byte)
  /-- Op 1, R110: write one frame into the request's OUT. -/
  | serialize (sender receiver : Byte) (payload : List Byte) (out : OutBuffer)
  /-- Op 2, R122: find the kind of a payload. -/
  | classify (payload : List Byte)
  /-- Op 3, R126: find the first registry entry of a kind. -/
  | template (kind : Kind)
  /-- Op 4, R167: the raw parameter codec over a work buffer. -/
  | codec (dir : Dir) (c : CodecId) (work : List Byte) (prm : Params)
  /-- Op 5, R161: decode one message at the front of a buffer. -/
  | decode (buf : List Byte)
  /-- Op 6, R164: encode one message into the request's OUT. -/
  | encode (kind : Kind) (prm : Params) (sender receiver : Byte) (out : OutBuffer)
  deriving DecidableEq, Repr

end Sys2Proof
end

