-- ==== Sys2Proof/Config.lean ====
section
/-! DEFINITION. What an implementation of the VCU fixes when it is built: MAX_FRAME (R9), the registry
ROM (R10, R29) and the harness bound RX_MAX (R15, R276). They are parameters of the model: a state
carries them, and no step changes them. -/

namespace Sys2Proof

/-- R29: one registry entry. `length` is the exact payload length; `signature` and `mask` hold one byte
for each payload offset (R55). -/
structure Entry where
  length : Nat
  signature : List Byte
  mask : List Byte
  kind : Kind
  codec : CodecId
  deriving DecidableEq, Repr

/-- R28, R29, R276: the configuration constants. `registry` holds the N definition rows and then the
sentinel; `rxMax` absent means unbounded. -/
structure Config where
  maxFrame : Nat
  registry : List Entry
  rxMax : Option Nat
  deriving DecidableEq, Repr

/-- R75: the byte that ends a frame. -/
def terminator : Byte := 0xFF

end Sys2Proof
end

