-- ==== Sys2Proof/WellFormed.lean ====
section
/-! DEFINITION. Which instructions are well formed. A message is a frame of R73: neither its header nor
a payload byte is 0xFF, since the first 0xFF ends the frame (R75). Digits and low nibbles cannot make
0xFF; a full-byte field and the header can. A port request's operands are typed, so each is well
formed; the one bound that depends on the configuration (R110: a payload of at most CAP bytes) is
checked where the request is answered. -/

namespace Sys2Proof

/-- R115: the header byte is not 0xFF. -/
def Header.wf (h : Header) : Bool := !(h.marker == 1 && h.sender == 7 && h.receiver == 15)

/-- R73, R114: a full-byte field does not hold the terminator value. -/
def fieldWf (b : Byte) : Bool := b != terminator

/-- R73: the frame of a message holds 0xFF at its end only. -/
def Instr.wf : Instr → Bool
  | .respByte h value => h.wf && fieldWf value
  | .respP h _ => h.wf
  | .respPQ h _ => h.wf
  | .respPQRS h _ => h.wf
  | .ptPosResp h _ _ => h.wf
  | .ack h _ => h.wf
  | .completion h _ => h.wf
  | .error h _ code => h.wf && fieldWf code
  | .camnumQuery h => h.wf
  | .camnumReply h _ => h.wf
  | .ptPosInq h => h.wf
  | .zoomStop h => h.wf
  | .zoomTele h => h.wf
  | .zoomWide h => h.wf
  | .zoomTeleVar h _ => h.wf
  | .zoomWideVar h _ => h.wf
  | .focusStop h => h.wf
  | .focusFar h => h.wf
  | .focusNear h => h.wf
  | .focusFarVar h _ => h.wf
  | .focusNearVar h _ => h.wf
  | .ptDrive h panSpeed tiltSpeed panDir tiltDir => h.wf && fieldWf panSpeed && fieldWf tiltSpeed && fieldWf panDir && fieldWf tiltDir
  | .memoryRecall h index => h.wf && fieldWf index
  | .memorySet h index => h.wf && fieldWf index
  | .clear h => h.wf
  | .motionSync h value => h.wf && fieldWf value
  | .presetSpeed h value => h.wf && fieldWf value
  | .ptAbs h panSpeed tiltSpeed _ _ => h.wf && fieldWf panSpeed && fieldWf tiltSpeed
  | .ptRel h panSpeed tiltSpeed _ _ => h.wf && fieldWf panSpeed && fieldWf tiltSpeed
  | .ptHome h => h.wf
  | .ptReset h => h.wf
  | .cancel h _ => h.wf
  | .menuEnter h => h.wf
  | .menuEnterVariant h => h.wf
  | .menuReturn h => h.wf
  | .menuMode h value => h.wf && fieldWf value
  | .menuModeInq h => h.wf
  | .brightPosDirect h _ => h.wf
  | .brightPosInq h => h.wf
  | .colorTempDirect h _ => h.wf
  | .colorTempInq h => h.wf
  | .flicker h _ => h.wf
  | .flickerInq h => h.wf
  | .gainLimit h _ => h.wf
  | .gainLimitInq h => h.wf
  | .wbMode h _ => h.wf
  | .wbModeInq h => h.wf
  | .focusAuto h => h.wf
  | .focusManual h => h.wf
  | .focusModeInq h => h.wf
  | .aeMode h value => h.wf && fieldWf value
  | .aeModeInq h => h.wf
  | .apertureDirect h _ => h.wf
  | .apertureInq h => h.wf
  | .rgainDirect h _ => h.wf
  | .rgainInq h => h.wf
  | .bgainDirect h _ => h.wf
  | .bgainInq h => h.wf
  | .zoomDirect h _ => h.wf
  | .zoomPosInq h => h.wf
  | .focusDirect h _ => h.wf
  | .focusPosInq h => h.wf
  | .colorGainDirect h _ => h.wf
  | .colorGainInq h => h.wf
  | .shutterDirect h _ => h.wf
  | .shutterInq h => h.wf
  | .irisDirect h _ => h.wf
  | .irisInq h => h.wf
  | .colorHueDirect h _ => h.wf
  | .colorHueInq h => h.wf
  | .lrReverse h value => h.wf && fieldWf value
  | .lrReverseInq h => h.wf
  | .pictureEffect h value => h.wf && fieldWf value
  | .pictureEffectInq h => h.wf
  | .pictureFlip h value => h.wf && fieldWf value
  | .pictureFlipInq h => h.wf
  | .brightnessDirect h _ => h.wf
  | .brightnessInq h => h.wf
  | .contrastDirect h _ => h.wf
  | .contrastInq h => h.wf
  | .awbSens h _ => h.wf
  | .awbSensInq h => h.wf
  | .extract _ => true
  | .serialize _ _ _ _ => true
  | .classify _ => true
  | .template _ => true
  | .codec _ _ _ _ => true
  | .decode _ => true
  | .encode _ _ _ _ _ => true

end Sys2Proof
end

