-- ==== Sys2Proof/Decode.lean ====
section
/-! DEFINITION. The encodings: header and digit layout (R73, R74, R80), the reference registry's table
(R129), the decoder of a byte stream and of a port request (R87, R101 to R104), and after them the
encoder. A later repair may change the body of every definition of this file. -/

namespace Sys2Proof

/-! ## Bit fields -/

/-- R16: bits 3:0 of a byte. -/
def low (b : Byte) : Nibble := b.extractLsb' 0 4

/-- The byte with the given high and low nibble (R16). -/
def nib (hi lo : Nibble) : Byte := hi ++ lo

/-- R83: an 8-bit value as two bytes `0p 0q`, the most significant digit first (R58). -/
def digits2 (v : Byte) : List Byte := [nib 0 (v.extractLsb' 4 4), nib 0 (v.extractLsb' 0 4)]

/-- R84: a 16-bit value as four bytes `0p 0q 0r 0s`, the most significant digit first (R58). -/
def digits4 (v : Half) : List Byte :=
  [nib 0 (v.extractLsb' 12 4), nib 0 (v.extractLsb' 8 4), nib 0 (v.extractLsb' 4 4),
   nib 0 (v.extractLsb' 0 4)]

/-- R74: bit 7 the marker, bits 6:4 the sender, bits 3:0 the receiver. -/
def Header.byte (h : Header) : Byte := h.marker ++ h.sender ++ h.receiver

/-- R74: the fields of a header byte. -/
def Header.ofByte (b : Byte) : Header :=
  ⟨b.extractLsb' 7 1, b.extractLsb' 4 3, b.extractLsb' 0 4⟩

/-- R73: a frame on the wire, `header payload FF`. -/
def frame (h : Header) (payload : List Byte) : List Byte := h.byte :: (payload ++ [terminator])

/-- R21: the least index that holds the terminator. -/
def findTerminator (buf : List Byte) : Option Nat := buf.findIdx? (· == terminator)

/-! ## The reference registry -/

/-- R129, rows 0 to 9: the replies and the camera number (44_msg_replies.md). -/
def replyRows : List Entry :=
  [⟨2, [0x50, 0x00], [0xFF, 0x00], .respByte, .byteRsp⟩,
   ⟨2, [0x50, 0x00], [0xFF, 0xF0], .respP, .pRsp⟩,
   ⟨3, [0x50, 0x00, 0x00], [0xFF, 0xF0, 0xF0], .respPQ, .pqRsp⟩,
   ⟨5, [0x50, 0x00, 0x00, 0x00, 0x00], [0xFF, 0xF0, 0xF0, 0xF0, 0xF0], .respPQRS, .pqrsRsp⟩,
   ⟨9, [0x50, 0x00, 0x00, 0x00, 0x00, 0x00, 0x00, 0x00, 0x00], [0xFF, 0xF0, 0xF0, 0xF0, 0xF0, 0xF0, 0xF0, 0xF0, 0xF0], .ptPosResp, .ptResp⟩,
   ⟨1, [0x40], [0xF0], .ack, .socket⟩,
   ⟨1, [0x50], [0xF0], .completion, .socket⟩,
   ⟨2, [0x60, 0x00], [0xF0, 0x00], .error, .error⟩,
   ⟨2, [0x30, 0x01], [0xFF, 0xFF], .camnumQuery, .none⟩,
   ⟨2, [0x30, 0x00], [0xFF, 0xF0], .camnumReply, .camnum⟩]

/-- R129, rows 10 to 36: pan-tilt, lens, presets, system and menu (45_msg_ptz_lens.md). -/
def ptzRows : List Entry :=
  [⟨3, [0x09, 0x06, 0x12], [0xFF, 0xFF, 0xFF], .ptPosInq, .none⟩,
   ⟨4, [0x01, 0x04, 0x07, 0x00], [0xFF, 0xFF, 0xFF, 0xFF], .zoomStop, .none⟩,
   ⟨4, [0x01, 0x04, 0x07, 0x02], [0xFF, 0xFF, 0xFF, 0xFF], .zoomTele, .none⟩,
   ⟨4, [0x01, 0x04, 0x07, 0x03], [0xFF, 0xFF, 0xFF, 0xFF], .zoomWide, .none⟩,
   ⟨4, [0x01, 0x04, 0x07, 0x20], [0xFF, 0xFF, 0xFF, 0xF0], .zoomTeleVar, .pCmd⟩,
   ⟨4, [0x01, 0x04, 0x07, 0x30], [0xFF, 0xFF, 0xFF, 0xF0], .zoomWideVar, .pCmd⟩,
   ⟨4, [0x01, 0x04, 0x08, 0x00], [0xFF, 0xFF, 0xFF, 0xFF], .focusStop, .none⟩,
   ⟨4, [0x01, 0x04, 0x08, 0x02], [0xFF, 0xFF, 0xFF, 0xFF], .focusFar, .none⟩,
   ⟨4, [0x01, 0x04, 0x08, 0x03], [0xFF, 0xFF, 0xFF, 0xFF], .focusNear, .none⟩,
   ⟨4, [0x01, 0x04, 0x08, 0x20], [0xFF, 0xFF, 0xFF, 0xF0], .focusFarVar, .pCmd⟩,
   ⟨4, [0x01, 0x04, 0x08, 0x30], [0xFF, 0xFF, 0xFF, 0xF0], .focusNearVar, .pCmd⟩,
   ⟨7, [0x01, 0x06, 0x01, 0x00, 0x00, 0x00, 0x00], [0xFF, 0xFF, 0xFF, 0x00, 0x00, 0x00, 0x00], .ptDrive, .ptDrive⟩,
   ⟨5, [0x01, 0x04, 0x3F, 0x02, 0x00], [0xFF, 0xFF, 0xFF, 0xFF, 0x00], .memoryRecall, .memory⟩,
   ⟨5, [0x01, 0x04, 0x3F, 0x01, 0x00], [0xFF, 0xFF, 0xFF, 0xFF, 0x00], .memorySet, .memory⟩,
   ⟨3, [0x01, 0x00, 0x01], [0xFF, 0xFF, 0xFF], .clear, .none⟩,
   ⟨4, [0x0A, 0x11, 0x13, 0x00], [0xFF, 0xFF, 0xFF, 0x00], .motionSync, .byteCmd⟩,
   ⟨4, [0x01, 0x06, 0x01, 0x00], [0xFF, 0xFF, 0xFF, 0x00], .presetSpeed, .byteCmd⟩,
   ⟨13, [0x01, 0x06, 0x02, 0x00, 0x00, 0x00, 0x00, 0x00, 0x00, 0x00, 0x00, 0x00, 0x00], [0xFF, 0xFF, 0xFF, 0x00, 0x00, 0xF0, 0xF0, 0xF0, 0xF0, 0xF0, 0xF0, 0xF0, 0xF0], .ptAbs, .ptAbs⟩,
   ⟨13, [0x01, 0x06, 0x03, 0x00, 0x00, 0x00, 0x00, 0x00, 0x00, 0x00, 0x00, 0x00, 0x00], [0xFF, 0xFF, 0xFF, 0x00, 0x00, 0xF0, 0xF0, 0xF0, 0xF0, 0xF0, 0xF0, 0xF0, 0xF0], .ptRel, .ptAbs⟩,
   ⟨3, [0x01, 0x06, 0x04], [0xFF, 0xFF, 0xFF], .ptHome, .none⟩,
   ⟨3, [0x01, 0x06, 0x05], [0xFF, 0xFF, 0xFF], .ptReset, .none⟩,
   ⟨1, [0x20], [0xF0], .cancel, .socket⟩,
   ⟨4, [0x01, 0x06, 0x06, 0x05], [0xFF, 0xFF, 0xFF, 0xFF], .menuEnter, .none⟩,
   ⟨6, [0x01, 0x7E, 0x01, 0x02, 0x00, 0x01], [0xFF, 0xFF, 0xFF, 0xFF, 0xFF, 0xFF], .menuEnter, .none⟩,
   ⟨4, [0x01, 0x06, 0x06, 0x04], [0xFF, 0xFF, 0xFF, 0xFF], .menuReturn, .none⟩,
   ⟨4, [0x01, 0x06, 0x06, 0x00], [0xFF, 0xFF, 0xFF, 0x00], .menuMode, .byteCmd⟩,
   ⟨3, [0x09, 0x06, 0x06], [0xFF, 0xFF, 0xFF], .menuModeInq, .none⟩]

/-- R129, rows 37 to 81: image and exposure (46_msg_image.md). -/
def imageRows : List Entry :=
  [⟨7, [0x01, 0x04, 0x4D, 0x00, 0x00, 0x00, 0x00], [0xFF, 0xFF, 0xFF, 0xF0, 0xF0, 0xF0, 0xF0], .brightPosDirect, .pqrsCmd⟩,
   ⟨3, [0x09, 0x04, 0x4D], [0xFF, 0xFF, 0xFF], .brightPosInq, .none⟩,
   ⟨5, [0x01, 0x04, 0x20, 0x00, 0x00], [0xFF, 0xFF, 0xFF, 0xF0, 0xF0], .colorTempDirect, .pqCmd⟩,
   ⟨3, [0x09, 0x04, 0x20], [0xFF, 0xFF, 0xFF], .colorTempInq, .none⟩,
   ⟨4, [0x01, 0x04, 0x23, 0x00], [0xFF, 0xFF, 0xFF, 0xF0], .flicker, .pCmd⟩,
   ⟨3, [0x09, 0x04, 0x23], [0xFF, 0xFF, 0xFF], .flickerInq, .none⟩,
   ⟨4, [0x01, 0x04, 0x2C, 0x00], [0xFF, 0xFF, 0xFF, 0xF0], .gainLimit, .pCmd⟩,
   ⟨3, [0x09, 0x04, 0x2C], [0xFF, 0xFF, 0xFF], .gainLimitInq, .none⟩,
   ⟨4, [0x01, 0x04, 0x35, 0x00], [0xFF, 0xFF, 0xFF, 0xF0], .wbMode, .pCmd⟩,
   ⟨3, [0x09, 0x04, 0x35], [0xFF, 0xFF, 0xFF], .wbModeInq, .none⟩,
   ⟨4, [0x01, 0x04, 0x38, 0x02], [0xFF, 0xFF, 0xFF, 0xFF], .focusAuto, .none⟩,
   ⟨4, [0x01, 0x04, 0x38, 0x03], [0xFF, 0xFF, 0xFF, 0xFF], .focusManual, .none⟩,
   ⟨3, [0x09, 0x04, 0x38], [0xFF, 0xFF, 0xFF], .focusModeInq, .none⟩,
   ⟨4, [0x01, 0x04, 0x39, 0x00], [0xFF, 0xFF, 0xFF, 0x00], .aeMode, .byteCmd⟩,
   ⟨3, [0x09, 0x04, 0x39], [0xFF, 0xFF, 0xFF], .aeModeInq, .none⟩,
   ⟨7, [0x01, 0x04, 0x42, 0x00, 0x00, 0x00, 0x00], [0xFF, 0xFF, 0xFF, 0xF0, 0xF0, 0xF0, 0xF0], .apertureDirect, .pqrsCmd⟩,
   ⟨3, [0x09, 0x04, 0x42], [0xFF, 0xFF, 0xFF], .apertureInq, .none⟩,
   ⟨7, [0x01, 0x04, 0x43, 0x00, 0x00, 0x00, 0x00], [0xFF, 0xFF, 0xFF, 0xF0, 0xF0, 0xF0, 0xF0], .rgainDirect, .pqrsCmd⟩,
   ⟨3, [0x09, 0x04, 0x43], [0xFF, 0xFF, 0xFF], .rgainInq, .none⟩,
   ⟨7, [0x01, 0x04, 0x44, 0x00, 0x00, 0x00, 0x00], [0xFF, 0xFF, 0xFF, 0xF0, 0xF0, 0xF0, 0xF0], .bgainDirect, .pqrsCmd⟩,
   ⟨3, [0x09, 0x04, 0x44], [0xFF, 0xFF, 0xFF], .bgainInq, .none⟩,
   ⟨7, [0x01, 0x04, 0x47, 0x00, 0x00, 0x00, 0x00], [0xFF, 0xFF, 0xFF, 0xF0, 0xF0, 0xF0, 0xF0], .zoomDirect, .pqrsCmd⟩,
   ⟨3, [0x09, 0x04, 0x47], [0xFF, 0xFF, 0xFF], .zoomPosInq, .none⟩,
   ⟨7, [0x01, 0x04, 0x48, 0x00, 0x00, 0x00, 0x00], [0xFF, 0xFF, 0xFF, 0xF0, 0xF0, 0xF0, 0xF0], .focusDirect, .pqrsCmd⟩,
   ⟨3, [0x09, 0x04, 0x48], [0xFF, 0xFF, 0xFF], .focusPosInq, .none⟩,
   ⟨7, [0x01, 0x04, 0x49, 0x00, 0x00, 0x00, 0x00], [0xFF, 0xFF, 0xFF, 0xF0, 0xF0, 0xF0, 0xF0], .colorGainDirect, .pqrsCmd⟩,
   ⟨3, [0x09, 0x04, 0x49], [0xFF, 0xFF, 0xFF], .colorGainInq, .none⟩,
   ⟨7, [0x01, 0x04, 0x4A, 0x00, 0x00, 0x00, 0x00], [0xFF, 0xFF, 0xFF, 0xF0, 0xF0, 0xF0, 0xF0], .shutterDirect, .pqrsCmd⟩,
   ⟨3, [0x09, 0x04, 0x4A], [0xFF, 0xFF, 0xFF], .shutterInq, .none⟩,
   ⟨7, [0x01, 0x04, 0x4B, 0x00, 0x00, 0x00, 0x00], [0xFF, 0xFF, 0xFF, 0xF0, 0xF0, 0xF0, 0xF0], .irisDirect, .pqrsCmd⟩,
   ⟨3, [0x09, 0x04, 0x4B], [0xFF, 0xFF, 0xFF], .irisInq, .none⟩,
   ⟨7, [0x01, 0x04, 0x4F, 0x00, 0x00, 0x00, 0x00], [0xFF, 0xFF, 0xFF, 0xF0, 0xF0, 0xF0, 0xF0], .colorHueDirect, .pqrsCmd⟩,
   ⟨3, [0x09, 0x04, 0x4F], [0xFF, 0xFF, 0xFF], .colorHueInq, .none⟩,
   ⟨4, [0x01, 0x04, 0x61, 0x00], [0xFF, 0xFF, 0xFF, 0x00], .lrReverse, .byteCmd⟩,
   ⟨3, [0x09, 0x04, 0x61], [0xFF, 0xFF, 0xFF], .lrReverseInq, .none⟩,
   ⟨4, [0x01, 0x04, 0x63, 0x00], [0xFF, 0xFF, 0xFF, 0x00], .pictureEffect, .byteCmd⟩,
   ⟨3, [0x09, 0x04, 0x63], [0xFF, 0xFF, 0xFF], .pictureEffectInq, .none⟩,
   ⟨4, [0x01, 0x04, 0x66, 0x00], [0xFF, 0xFF, 0xFF, 0x00], .pictureFlip, .byteCmd⟩,
   ⟨3, [0x09, 0x04, 0x66], [0xFF, 0xFF, 0xFF], .pictureFlipInq, .none⟩,
   ⟨7, [0x01, 0x04, 0xA1, 0x00, 0x00, 0x00, 0x00], [0xFF, 0xFF, 0xFF, 0xF0, 0xF0, 0xF0, 0xF0], .brightnessDirect, .pqrsCmd⟩,
   ⟨3, [0x09, 0x04, 0xA1], [0xFF, 0xFF, 0xFF], .brightnessInq, .none⟩,
   ⟨7, [0x01, 0x04, 0xA2, 0x00, 0x00, 0x00, 0x00], [0xFF, 0xFF, 0xFF, 0xF0, 0xF0, 0xF0, 0xF0], .contrastDirect, .pqrsCmd⟩,
   ⟨3, [0x09, 0x04, 0xA2], [0xFF, 0xFF, 0xFF], .contrastInq, .none⟩,
   ⟨4, [0x01, 0x04, 0xA9, 0x00], [0xFF, 0xFF, 0xFF, 0xF0], .awbSens, .pCmd⟩,
   ⟨3, [0x09, 0x04, 0xA9], [0xFF, 0xFF, 0xFF], .awbSensInq, .none⟩]

/-- R129: the 82 definition rows of REF_REGISTRY, in registry order. -/
def refRows : List Entry := replyRows ++ ptzRows ++ imageRows

/-- R119 W1, R120: the sentinel. Only its length is the spec's: R129 gives row 82 no kind and no codec. The kind
`unknown` and the codec `none` that stand here are DESIGN CHOICE (log entry 20), and nothing reads them. -/
def sentinel : Entry := ⟨0, [], [], .unknown, .none⟩

/-- R129: REF_REGISTRY, the rows and the sentinel at index 82. -/
def refRegistry : List Entry := refRows ++ [sentinel]

/-- R9: the reference value of MAX_FRAME. -/
def refMaxFrame : Nat := 16

/-- R121: masked equality. The length test comes first. -/
def Entry.admits (e : Entry) (p : List Byte) : Bool :=
  p.length == e.length && List.zipWith (· &&& ·) p e.mask == e.signature

/-! ## Numbers of kinds and codecs at the port -/

/-- R88: the id of a kind. -/
def Kind.id : Kind → Nat
  | .unknown => 0
  | .respByte => 1
  | .respP => 2
  | .respPQ => 3
  | .respPQRS => 4
  | .ptPosResp => 5
  | .ack => 6
  | .completion => 7
  | .error => 8
  | .camnumQuery => 9
  | .camnumReply => 10
  | .ptPosInq => 11
  | .zoomStop => 12
  | .zoomTele => 13
  | .zoomWide => 14
  | .zoomTeleVar => 15
  | .zoomWideVar => 16
  | .focusStop => 17
  | .focusFar => 18
  | .focusNear => 19
  | .focusFarVar => 20
  | .focusNearVar => 21
  | .ptDrive => 22
  | .memoryRecall => 23
  | .memorySet => 24
  | .clear => 25
  | .motionSync => 26
  | .presetSpeed => 27
  | .ptAbs => 28
  | .ptRel => 29
  | .ptHome => 30
  | .ptReset => 31
  | .cancel => 32
  | .menuEnter => 33
  | .menuReturn => 34
  | .menuMode => 35
  | .menuModeInq => 36
  | .brightPosDirect => 37
  | .brightPosInq => 38
  | .colorTempDirect => 39
  | .colorTempInq => 40
  | .flicker => 41
  | .flickerInq => 42
  | .gainLimit => 43
  | .gainLimitInq => 44
  | .wbMode => 45
  | .wbModeInq => 46
  | .focusAuto => 47
  | .focusManual => 48
  | .focusModeInq => 49
  | .aeMode => 50
  | .aeModeInq => 51
  | .apertureDirect => 52
  | .apertureInq => 53
  | .rgainDirect => 54
  | .rgainInq => 55
  | .bgainDirect => 56
  | .bgainInq => 57
  | .zoomDirect => 58
  | .zoomPosInq => 59
  | .focusDirect => 60
  | .focusPosInq => 61
  | .colorGainDirect => 62
  | .colorGainInq => 63
  | .shutterDirect => 64
  | .shutterInq => 65
  | .irisDirect => 66
  | .irisInq => 67
  | .colorHueDirect => 68
  | .colorHueInq => 69
  | .lrReverse => 70
  | .lrReverseInq => 71
  | .pictureEffect => 72
  | .pictureEffectInq => 73
  | .pictureFlip => 74
  | .pictureFlipInq => 75
  | .brightnessDirect => 76
  | .brightnessInq => 77
  | .contrastDirect => 78
  | .contrastInq => 79
  | .awbSens => 80
  | .awbSensInq => 81

/-- R88: the kinds in id order. -/
def kindList : List Kind :=
  [.unknown, .respByte, .respP, .respPQ, .respPQRS, .ptPosResp, .ack, .completion, .error, .camnumQuery,
   .camnumReply, .ptPosInq, .zoomStop, .zoomTele, .zoomWide, .zoomTeleVar, .zoomWideVar, .focusStop,
   .focusFar, .focusNear, .focusFarVar, .focusNearVar, .ptDrive, .memoryRecall, .memorySet, .clear,
   .motionSync, .presetSpeed, .ptAbs, .ptRel, .ptHome, .ptReset, .cancel, .menuEnter, .menuReturn, .menuMode,
   .menuModeInq, .brightPosDirect, .brightPosInq, .colorTempDirect, .colorTempInq, .flicker, .flickerInq,
   .gainLimit, .gainLimitInq, .wbMode, .wbModeInq, .focusAuto, .focusManual, .focusModeInq, .aeMode,
   .aeModeInq, .apertureDirect, .apertureInq, .rgainDirect, .rgainInq, .bgainDirect, .bgainInq, .zoomDirect,
   .zoomPosInq, .focusDirect, .focusPosInq, .colorGainDirect, .colorGainInq, .shutterDirect, .shutterInq,
   .irisDirect, .irisInq, .colorHueDirect, .colorHueInq, .lrReverse, .lrReverseInq, .pictureEffect,
   .pictureEffectInq, .pictureFlip, .pictureFlipInq, .brightnessDirect, .brightnessInq, .contrastDirect,
   .contrastInq, .awbSens, .awbSensInq]

/-- R88, R102: the kind with an id; none above 81. -/
def Kind.ofId (n : Nat) : Option Kind := kindList[n]?

/-- R100: the 4-bit number of a codec id. -/
def CodecId.number : CodecId → Nat
  | .none => 0
  | .byteCmd => 1
  | .byteRsp => 2
  | .pCmd => 3
  | .pRsp => 4
  | .pqCmd => 5
  | .pqRsp => 6
  | .pqrsCmd => 7
  | .pqrsRsp => 8
  | .ptAbs => 9
  | .ptResp => 10
  | .ptDrive => 11
  | .socket => 12
  | .error => 13
  | .camnum => 14
  | .memory => 15

/-- R100: the codec ids in number order. -/
def codecList : List CodecId :=
  [.none, .byteCmd, .byteRsp, .pCmd, .pRsp, .pqCmd, .pqRsp, .pqrsCmd, .pqrsRsp, .ptAbs, .ptResp,
   .ptDrive, .socket, .error, .camnum, .memory]

/-- R100, R102: the codec with a number; none above 15. -/
def CodecId.ofNumber (n : Nat) : Option CodecId := codecList[n]?

/-- R103: 0 is the decode direction and 1 the encode direction. -/
def Dir.ofNumber : Nat → Option Dir
  | 0 => some .decode
  | 1 => some .encode
  | _ => none

/-- R103. -/
def Dir.number : Dir → Nat
  | .decode => 0
  | .encode => 1

/-! ## Decoding a frame of the opcode table -/

/-- R138: the full byte at offset 1. -/
def byteAt1 (p : List Byte) (f : Byte → Instr) : Option Instr :=
  match p with
  | [_, v] => some (f v)
  | _ => none

/-- R137: the full byte at offset 3. -/
def byteAt3 (p : List Byte) (f : Byte → Instr) : Option Instr :=
  match p with
  | [_, _, _, v] => some (f v)
  | _ => none

/-- R151: the full byte at offset 4. -/
def byteAt4 (p : List Byte) (f : Byte → Instr) : Option Instr :=
  match p with
  | [_, _, _, _, v] => some (f v)
  | _ => none

/-- R148: the low nibble at offset 0. -/
def lowAt0 (p : List Byte) (f : Nibble → Instr) : Option Instr :=
  match p with
  | [v] => some (f (low v))
  | _ => none

/-- R140, R150: the low nibble at offset 1. -/
def lowAt1 (p : List Byte) (f : Nibble → Instr) : Option Instr :=
  match p with
  | [_, v] => some (f (low v))
  | _ => none

/-- R139: the low nibble at offset 3. -/
def lowAt3 (p : List Byte) (f : Nibble → Instr) : Option Instr :=
  match p with
  | [_, _, _, v] => some (f (low v))
  | _ => none

/-- R142: two digits at offsets 1 and 2. -/
def pairAt1 (p : List Byte) (f : Byte → Instr) : Option Instr :=
  match p with
  | [_, a, b] => some (f (low a ++ low b))
  | _ => none

/-- R141: two digits at offsets 3 and 4. -/
def pairAt3 (p : List Byte) (f : Byte → Instr) : Option Instr :=
  match p with
  | [_, _, _, a, b] => some (f (low a ++ low b))
  | _ => none

/-- R84: a 16-bit value from the low nibbles of four bytes, the first the most significant. -/
def quad (a b c d : Byte) : Half := low a ++ low b ++ low c ++ low d

/-- R144: four digits at offsets 1 to 4. -/
def quadAt1 (p : List Byte) (f : Half → Instr) : Option Instr :=
  match p with
  | [_, a, b, c, d] => some (f (quad a b c d))
  | _ => none

/-- R143: four digits at offsets 3 to 6. -/
def quadAt3 (p : List Byte) (f : Half → Instr) : Option Instr :=
  match p with
  | [_, _, _, a, b, c, d] => some (f (quad a b c d))
  | _ => none

/-- R145: speeds at offsets 3 and 4, positions at 5 to 8 and 9 to 12. -/
def positionAt3 (p : List Byte) (f : Byte → Byte → Half → Half → Instr) : Option Instr :=
  match p with
  | [_, _, _, v, w, a, b, c, d, e, g, i, j] => some (f v w (quad a b c d) (quad e g i j))
  | _ => none

/-- R146: positions at offsets 1 to 4 and 5 to 8. -/
def positionAt1 (p : List Byte) (f : Half → Half → Instr) : Option Instr :=
  match p with
  | [_, a, b, c, d, e, g, i, j] => some (f (quad a b c d) (quad e g i j))
  | _ => none

/-- R147: speeds and directions at offsets 3, 4, 5 and 6. -/
def driveAt3 (p : List Byte) (f : Byte → Byte → Byte → Byte → Instr) : Option Instr :=
  match p with
  | [_, _, _, v, w, x, y] => some (f v w x y)
  | _ => none

/-- R149: the socket in the low nibble of offset 0, the code at offset 1. -/
def errorAt0 (p : List Byte) (f : Nibble → Byte → Instr) : Option Instr :=
  match p with
  | [a, v] => some (f (low a) v)
  | _ => none

/-- The instruction of a payload that a row of the given kind matches: the row's fields at the offsets
of R80. `MENU_ENTER` has two rows, told apart by their lengths (R127). -/
def instrOfKind (k : Kind) (h : Header) (p : List Byte) : Option Instr :=
  match k with
  | .unknown => .none
  | .respByte => byteAt1 p (.respByte h)
  | .respP => lowAt1 p (.respP h)
  | .respPQ => pairAt1 p (.respPQ h)
  | .respPQRS => quadAt1 p (.respPQRS h)
  | .ptPosResp => positionAt1 p (.ptPosResp h)
  | .ack => lowAt0 p (.ack h)
  | .completion => lowAt0 p (.completion h)
  | .error => errorAt0 p (.error h)
  | .camnumQuery => some (.camnumQuery h)
  | .camnumReply => lowAt1 p (.camnumReply h)
  | .ptPosInq => some (.ptPosInq h)
  | .zoomStop => some (.zoomStop h)
  | .zoomTele => some (.zoomTele h)
  | .zoomWide => some (.zoomWide h)
  | .zoomTeleVar => lowAt3 p (.zoomTeleVar h)
  | .zoomWideVar => lowAt3 p (.zoomWideVar h)
  | .focusStop => some (.focusStop h)
  | .focusFar => some (.focusFar h)
  | .focusNear => some (.focusNear h)
  | .focusFarVar => lowAt3 p (.focusFarVar h)
  | .focusNearVar => lowAt3 p (.focusNearVar h)
  | .ptDrive => driveAt3 p (.ptDrive h)
  | .memoryRecall => byteAt4 p (.memoryRecall h)
  | .memorySet => byteAt4 p (.memorySet h)
  | .clear => some (.clear h)
  | .motionSync => byteAt3 p (.motionSync h)
  | .presetSpeed => byteAt3 p (.presetSpeed h)
  | .ptAbs => positionAt3 p (.ptAbs h)
  | .ptRel => positionAt3 p (.ptRel h)
  | .ptHome => some (.ptHome h)
  | .ptReset => some (.ptReset h)
  | .cancel => lowAt0 p (.cancel h)
  | .menuEnter => if p.length = 6 then some (.menuEnterVariant h) else some (.menuEnter h)
  | .menuReturn => some (.menuReturn h)
  | .menuMode => byteAt3 p (.menuMode h)
  | .menuModeInq => some (.menuModeInq h)
  | .brightPosDirect => quadAt3 p (.brightPosDirect h)
  | .brightPosInq => some (.brightPosInq h)
  | .colorTempDirect => pairAt3 p (.colorTempDirect h)
  | .colorTempInq => some (.colorTempInq h)
  | .flicker => lowAt3 p (.flicker h)
  | .flickerInq => some (.flickerInq h)
  | .gainLimit => lowAt3 p (.gainLimit h)
  | .gainLimitInq => some (.gainLimitInq h)
  | .wbMode => lowAt3 p (.wbMode h)
  | .wbModeInq => some (.wbModeInq h)
  | .focusAuto => some (.focusAuto h)
  | .focusManual => some (.focusManual h)
  | .focusModeInq => some (.focusModeInq h)
  | .aeMode => byteAt3 p (.aeMode h)
  | .aeModeInq => some (.aeModeInq h)
  | .apertureDirect => quadAt3 p (.apertureDirect h)
  | .apertureInq => some (.apertureInq h)
  | .rgainDirect => quadAt3 p (.rgainDirect h)
  | .rgainInq => some (.rgainInq h)
  | .bgainDirect => quadAt3 p (.bgainDirect h)
  | .bgainInq => some (.bgainInq h)
  | .zoomDirect => quadAt3 p (.zoomDirect h)
  | .zoomPosInq => some (.zoomPosInq h)
  | .focusDirect => quadAt3 p (.focusDirect h)
  | .focusPosInq => some (.focusPosInq h)
  | .colorGainDirect => quadAt3 p (.colorGainDirect h)
  | .colorGainInq => some (.colorGainInq h)
  | .shutterDirect => quadAt3 p (.shutterDirect h)
  | .shutterInq => some (.shutterInq h)
  | .irisDirect => quadAt3 p (.irisDirect h)
  | .irisInq => some (.irisInq h)
  | .colorHueDirect => quadAt3 p (.colorHueDirect h)
  | .colorHueInq => some (.colorHueInq h)
  | .lrReverse => byteAt3 p (.lrReverse h)
  | .lrReverseInq => some (.lrReverseInq h)
  | .pictureEffect => byteAt3 p (.pictureEffect h)
  | .pictureEffectInq => some (.pictureEffectInq h)
  | .pictureFlip => byteAt3 p (.pictureFlip h)
  | .pictureFlipInq => some (.pictureFlipInq h)
  | .brightnessDirect => quadAt3 p (.brightnessDirect h)
  | .brightnessInq => some (.brightnessInq h)
  | .contrastDirect => quadAt3 p (.contrastDirect h)
  | .contrastInq => some (.contrastInq h)
  | .awbSens => lowAt3 p (.awbSens h)
  | .awbSensInq => some (.awbSensInq h)

/-- R87: classify run over the rows of the table in order; the first row that matches gives the
instruction (R124). -/
def decodePayload (h : Header) (p : List Byte) : Option Instr :=
  (refRows.find? (·.admits p)).bind fun e => instrOfKind e.kind h p

/-- R94: the instruction of the frame at the front of a byte stream. The first terminator ends the frame
(R75); later bytes are not read. -/
def decodeWire (buf : List Byte) : Except WireReject Instr :=
  match buf, findTerminator buf with
  | _, none => .error .incomplete
  | [], _ => .error .incomplete
  | _ :: _, some 0 => .error .terminatorAtZero
  | hdr :: rest, some (t + 1) =>
    match decodePayload (Header.ofByte hdr) (rest.take t) with
    | some i => .ok i
    | none => .error .noRow

/-! ## Decoding a port request -/

/-- R104: the tag of a shape. -/
def Shape.tag : Shape → Nat
  | .none => 0
  | .oneByte => 1
  | .twoByte => 2
  | .ptPosition => 3
  | .ptDrive => 4
  | .socket => 5
  | .errorReply => 6
  | .cameraNumber => 7
  | .memory => 8

/-- R33: the shape of a parameter value. -/
def Params.shape : Params → Shape
  | .none => .none
  | .oneByte _ => .oneByte
  | .twoByte _ => .twoByte
  | .ptPosition _ _ _ _ => .ptPosition
  | .ptDrive _ _ _ _ => .ptDrive
  | .socket _ => .socket
  | .errorReply _ _ => .errorReply
  | .cameraNumber _ => .cameraNumber
  | .memory _ _ => .memory

/-- R271: a field value of the given width, refused when it is wider. -/
def fieldOf (w n : Nat) : Except PortReject (BitVec w) :=
  if n < 2 ^ w then .ok (BitVec.ofNat w n) else .error .paramField

/-- R33, R104: the parameter value of a request. -/
def decodeParams (r : PortRequest) : Except PortReject Params :=
  match r.tag with
  | 0 => .ok .none
  | 1 => do .ok (.oneByte (← fieldOf 8 r.prm0))
  | 2 => do .ok (.twoByte (← fieldOf 16 r.prm0))
  | 3 => do .ok (.ptPosition (← fieldOf 8 r.prm0) (← fieldOf 8 r.prm1) (← fieldOf 16 r.prm2) (← fieldOf 16 r.prm3))
  | 4 => do .ok (.ptDrive (← fieldOf 8 r.prm0) (← fieldOf 8 r.prm1) (← fieldOf 8 r.prm2) (← fieldOf 8 r.prm3))
  | 5 => do .ok (.socket (← fieldOf 4 r.prm0))
  | 6 => do .ok (.errorReply (← fieldOf 4 r.prm0) (← fieldOf 8 r.prm1))
  | 7 => do .ok (.cameraNumber (← fieldOf 4 r.prm0))
  | 8 => do .ok (.memory (← fieldOf 8 r.prm0) (← fieldOf 8 r.prm1))
  | _ => .error .tagField

/-- R102: the kind field of TEMPLATE and ENCODE. -/
def decodeKind (r : PortRequest) : Except PortReject Kind :=
  match Kind.ofId r.kind with
  | some k => .ok k
  | none => .error .kindField

/-- R102: the codec field of CODEC. -/
def decodeCodec (r : PortRequest) : Except PortReject CodecId :=
  match CodecId.ofNumber r.codec with
  | some c => .ok c
  | none => .error .codecField

/-- R102, R103: the direction flag of CODEC. -/
def decodeDir (r : PortRequest) : Except PortReject Dir :=
  match Dir.ofNumber r.dir with
  | some d => .ok d
  | none => .error .dirField

/-- R101, R102: the operation a request names, with the operands its row reads. -/
def decodePort (r : PortRequest) : Except PortReject Instr :=
  match r.op.toNat with
  | 0 => .ok (.extract r.buf)
  | 1 => .ok (.serialize r.sender r.receiver r.payload ⟨r.outCapacity, r.outHeld⟩)
  | 2 => .ok (.classify r.payload)
  | 3 => do .ok (.template (← decodeKind r))
  | 4 => do .ok (.codec (← decodeDir r) (← decodeCodec r) r.work (← decodeParams r))
  | 5 => .ok (.decode r.buf)
  | 6 => do .ok (.encode (← decodeKind r) (← decodeParams r) r.sender r.receiver ⟨r.outCapacity, r.outHeld⟩)
  | _ => .error .opField

/-- The instruction held by a frame or by a port request. -/
def decode : Code → Option Instr
  | .wire bytes => (decodeWire bytes).toOption
  | .port r => (decodePort r).toOption

/-! ## Encoding -/

/-- The frame of a message, written from the row's "On the wire" pattern (R173 to R254); nothing for a
port request. -/
def wireBytes : Instr → List Byte
  | .respByte h value => frame h [0x50, value]
  | .respP h value => frame h [0x50, nib 0x0 value]
  | .respPQ h value => frame h ([0x50] ++ digits2 value)
  | .respPQRS h value => frame h ([0x50] ++ digits4 value)
  | .ptPosResp h panPos tiltPos => frame h ([0x50] ++ digits4 panPos ++ digits4 tiltPos)
  | .ack h socket => frame h [nib 0x4 socket]
  | .completion h socket => frame h [nib 0x5 socket]
  | .error h socket code => frame h [nib 0x6 socket, code]
  | .camnumQuery h => frame h [0x30, 0x01]
  | .camnumReply h index => frame h [0x30, nib 0x0 index]
  | .ptPosInq h => frame h [0x09, 0x06, 0x12]
  | .zoomStop h => frame h [0x01, 0x04, 0x07, 0x00]
  | .zoomTele h => frame h [0x01, 0x04, 0x07, 0x02]
  | .zoomWide h => frame h [0x01, 0x04, 0x07, 0x03]
  | .zoomTeleVar h value => frame h [0x01, 0x04, 0x07, nib 0x2 value]
  | .zoomWideVar h value => frame h [0x01, 0x04, 0x07, nib 0x3 value]
  | .focusStop h => frame h [0x01, 0x04, 0x08, 0x00]
  | .focusFar h => frame h [0x01, 0x04, 0x08, 0x02]
  | .focusNear h => frame h [0x01, 0x04, 0x08, 0x03]
  | .focusFarVar h value => frame h [0x01, 0x04, 0x08, nib 0x2 value]
  | .focusNearVar h value => frame h [0x01, 0x04, 0x08, nib 0x3 value]
  | .ptDrive h panSpeed tiltSpeed panDir tiltDir => frame h [0x01, 0x06, 0x01, panSpeed, tiltSpeed, panDir, tiltDir]
  | .memoryRecall h index => frame h [0x01, 0x04, 0x3F, 0x02, index]
  | .memorySet h index => frame h [0x01, 0x04, 0x3F, 0x01, index]
  | .clear h => frame h [0x01, 0x00, 0x01]
  | .motionSync h value => frame h [0x0A, 0x11, 0x13, value]
  | .presetSpeed h value => frame h [0x01, 0x06, 0x01, value]
  | .ptAbs h panSpeed tiltSpeed panPos tiltPos => frame h ([0x01, 0x06, 0x02, panSpeed, tiltSpeed] ++ digits4 panPos ++ digits4 tiltPos)
  | .ptRel h panSpeed tiltSpeed panPos tiltPos => frame h ([0x01, 0x06, 0x03, panSpeed, tiltSpeed] ++ digits4 panPos ++ digits4 tiltPos)
  | .ptHome h => frame h [0x01, 0x06, 0x04]
  | .ptReset h => frame h [0x01, 0x06, 0x05]
  | .cancel h socket => frame h [nib 0x2 socket]
  | .menuEnter h => frame h [0x01, 0x06, 0x06, 0x05]
  | .menuEnterVariant h => frame h [0x01, 0x7E, 0x01, 0x02, 0x00, 0x01]
  | .menuReturn h => frame h [0x01, 0x06, 0x06, 0x04]
  | .menuMode h value => frame h [0x01, 0x06, 0x06, value]
  | .menuModeInq h => frame h [0x09, 0x06, 0x06]
  | .brightPosDirect h value => frame h ([0x01, 0x04, 0x4D] ++ digits4 value)
  | .brightPosInq h => frame h [0x09, 0x04, 0x4D]
  | .colorTempDirect h value => frame h ([0x01, 0x04, 0x20] ++ digits2 value)
  | .colorTempInq h => frame h [0x09, 0x04, 0x20]
  | .flicker h value => frame h [0x01, 0x04, 0x23, nib 0x0 value]
  | .flickerInq h => frame h [0x09, 0x04, 0x23]
  | .gainLimit h value => frame h [0x01, 0x04, 0x2C, nib 0x0 value]
  | .gainLimitInq h => frame h [0x09, 0x04, 0x2C]
  | .wbMode h value => frame h [0x01, 0x04, 0x35, nib 0x0 value]
  | .wbModeInq h => frame h [0x09, 0x04, 0x35]
  | .focusAuto h => frame h [0x01, 0x04, 0x38, 0x02]
  | .focusManual h => frame h [0x01, 0x04, 0x38, 0x03]
  | .focusModeInq h => frame h [0x09, 0x04, 0x38]
  | .aeMode h value => frame h [0x01, 0x04, 0x39, value]
  | .aeModeInq h => frame h [0x09, 0x04, 0x39]
  | .apertureDirect h value => frame h ([0x01, 0x04, 0x42] ++ digits4 value)
  | .apertureInq h => frame h [0x09, 0x04, 0x42]
  | .rgainDirect h value => frame h ([0x01, 0x04, 0x43] ++ digits4 value)
  | .rgainInq h => frame h [0x09, 0x04, 0x43]
  | .bgainDirect h value => frame h ([0x01, 0x04, 0x44] ++ digits4 value)
  | .bgainInq h => frame h [0x09, 0x04, 0x44]
  | .zoomDirect h value => frame h ([0x01, 0x04, 0x47] ++ digits4 value)
  | .zoomPosInq h => frame h [0x09, 0x04, 0x47]
  | .focusDirect h value => frame h ([0x01, 0x04, 0x48] ++ digits4 value)
  | .focusPosInq h => frame h [0x09, 0x04, 0x48]
  | .colorGainDirect h value => frame h ([0x01, 0x04, 0x49] ++ digits4 value)
  | .colorGainInq h => frame h [0x09, 0x04, 0x49]
  | .shutterDirect h value => frame h ([0x01, 0x04, 0x4A] ++ digits4 value)
  | .shutterInq h => frame h [0x09, 0x04, 0x4A]
  | .irisDirect h value => frame h ([0x01, 0x04, 0x4B] ++ digits4 value)
  | .irisInq h => frame h [0x09, 0x04, 0x4B]
  | .colorHueDirect h value => frame h ([0x01, 0x04, 0x4F] ++ digits4 value)
  | .colorHueInq h => frame h [0x09, 0x04, 0x4F]
  | .lrReverse h value => frame h [0x01, 0x04, 0x61, value]
  | .lrReverseInq h => frame h [0x09, 0x04, 0x61]
  | .pictureEffect h value => frame h [0x01, 0x04, 0x63, value]
  | .pictureEffectInq h => frame h [0x09, 0x04, 0x63]
  | .pictureFlip h value => frame h [0x01, 0x04, 0x66, value]
  | .pictureFlipInq h => frame h [0x09, 0x04, 0x66]
  | .brightnessDirect h value => frame h ([0x01, 0x04, 0xA1] ++ digits4 value)
  | .brightnessInq h => frame h [0x09, 0x04, 0xA1]
  | .contrastDirect h value => frame h ([0x01, 0x04, 0xA2] ++ digits4 value)
  | .contrastInq h => frame h [0x09, 0x04, 0xA2]
  | .awbSens h value => frame h [0x01, 0x04, 0xA9, nib 0x0 value]
  | .awbSensInq h => frame h [0x09, 0x04, 0xA9]
  | .extract _ | .serialize _ _ _ _ | .classify _ | .template _ | .codec _ _ _ _ | .decode _
  | .encode _ _ _ _ _ => []

/-- R104: a parameter value in the fields of a request. -/
def PortRequest.withParams (r : PortRequest) : Params → PortRequest
  | .none => { r with tag := 0 }
  | .oneByte v => { r with tag := 1, prm0 := v.toNat }
  | .twoByte v => { r with tag := 2, prm0 := v.toNat }
  | .ptPosition a b c d => { r with tag := 3, prm0 := a.toNat, prm1 := b.toNat, prm2 := c.toNat, prm3 := d.toNat }
  | .ptDrive a b c d => { r with tag := 4, prm0 := a.toNat, prm1 := b.toNat, prm2 := c.toNat, prm3 := d.toNat }
  | .socket z => { r with tag := 5, prm0 := z.toNat }
  | .errorReply z e => { r with tag := 6, prm0 := z.toNat, prm1 := e.toNat }
  | .cameraNumber w => { r with tag := 7, prm0 := w.toNat }
  | .memory i m => { r with tag := 8, prm0 := i.toNat, prm1 := m.toNat }

/-- The hardware form of an instruction: a frame for a message row, a request record for an operation
(R101). -/
def encode (i : Instr) : Code :=
  match i with
  | .extract buf => .port { op := 0, buf := buf }
  | .serialize s r p out =>
    .port { op := 1, sender := s, receiver := r, payload := p, outCapacity := out.capacity, outHeld := out.held }
  | .classify p => .port { op := 2, payload := p }
  | .template k => .port { op := 3, kind := k.id }
  | .codec d c w prm =>
    .port (PortRequest.withParams { op := 4, dir := d.number, codec := c.number, work := w } prm)
  | .decode buf => .port { op := 5, buf := buf }
  | .encode k prm s r out =>
    .port (PortRequest.withParams
      { op := 6, kind := k.id, sender := s, receiver := r, outCapacity := out.capacity, outHeld := out.held } prm)
  | .respByte .. | .respP .. | .respPQ .. | .respPQRS .. | .ptPosResp .. | .ack .. | .completion ..
  | .error .. | .camnumQuery .. | .camnumReply .. | .ptPosInq .. | .zoomStop .. | .zoomTele ..
  | .zoomWide .. | .zoomTeleVar .. | .zoomWideVar .. | .focusStop .. | .focusFar .. | .focusNear ..
  | .focusFarVar .. | .focusNearVar .. | .ptDrive .. | .memoryRecall .. | .memorySet .. | .clear ..
  | .motionSync .. | .presetSpeed .. | .ptAbs .. | .ptRel .. | .ptHome .. | .ptReset ..
  | .cancel .. | .menuEnter .. | .menuEnterVariant .. | .menuReturn .. | .menuMode ..
  | .menuModeInq .. | .brightPosDirect .. | .brightPosInq .. | .colorTempDirect ..
  | .colorTempInq .. | .flicker .. | .flickerInq .. | .gainLimit .. | .gainLimitInq .. | .wbMode ..
  | .wbModeInq .. | .focusAuto .. | .focusManual .. | .focusModeInq .. | .aeMode .. | .aeModeInq ..
  | .apertureDirect .. | .apertureInq .. | .rgainDirect .. | .rgainInq .. | .bgainDirect ..
  | .bgainInq .. | .zoomDirect .. | .zoomPosInq .. | .focusDirect .. | .focusPosInq ..
  | .colorGainDirect .. | .colorGainInq .. | .shutterDirect .. | .shutterInq .. | .irisDirect ..
  | .irisInq .. | .colorHueDirect .. | .colorHueInq .. | .lrReverse .. | .lrReverseInq ..
  | .pictureEffect .. | .pictureEffectInq .. | .pictureFlip .. | .pictureFlipInq ..
  | .brightnessDirect .. | .brightnessInq .. | .contrastDirect .. | .contrastInq .. | .awbSens ..
  | .awbSensInq .. => .wire (wireBytes i)

/-! ## Typed messages -/

/-- R96: a typed message `KIND(param) @ s->r`. -/
structure Message where
  kind : Kind
  params : Params
  sender : BitVec 3
  receiver : BitVec 4
  deriving DecidableEq, Repr

/-- The typed message that a row's own rule (R173 to R254) gives its fields; nothing for a port
request. -/
def typedMessage : Instr → Option Message
  | .respByte h value => some ⟨.respByte, .oneByte value, h.sender, h.receiver⟩
  | .respP h value => some ⟨.respP, .oneByte (nib 0x0 value), h.sender, h.receiver⟩
  | .respPQ h value => some ⟨.respPQ, .oneByte value, h.sender, h.receiver⟩
  | .respPQRS h value => some ⟨.respPQRS, .twoByte value, h.sender, h.receiver⟩
  | .ptPosResp h panPos tiltPos => some ⟨.ptPosResp, .ptPosition 0 0 panPos tiltPos, h.sender, h.receiver⟩
  | .ack h socket => some ⟨.ack, .socket socket, h.sender, h.receiver⟩
  | .completion h socket => some ⟨.completion, .socket socket, h.sender, h.receiver⟩
  | .error h socket code => some ⟨.error, .errorReply socket code, h.sender, h.receiver⟩
  | .camnumQuery h => some ⟨.camnumQuery, .none, h.sender, h.receiver⟩
  | .camnumReply h index => some ⟨.camnumReply, .cameraNumber index, h.sender, h.receiver⟩
  | .ptPosInq h => some ⟨.ptPosInq, .none, h.sender, h.receiver⟩
  | .zoomStop h => some ⟨.zoomStop, .none, h.sender, h.receiver⟩
  | .zoomTele h => some ⟨.zoomTele, .none, h.sender, h.receiver⟩
  | .zoomWide h => some ⟨.zoomWide, .none, h.sender, h.receiver⟩
  | .zoomTeleVar h value => some ⟨.zoomTeleVar, .oneByte (nib 0x0 value), h.sender, h.receiver⟩
  | .zoomWideVar h value => some ⟨.zoomWideVar, .oneByte (nib 0x0 value), h.sender, h.receiver⟩
  | .focusStop h => some ⟨.focusStop, .none, h.sender, h.receiver⟩
  | .focusFar h => some ⟨.focusFar, .none, h.sender, h.receiver⟩
  | .focusNear h => some ⟨.focusNear, .none, h.sender, h.receiver⟩
  | .focusFarVar h value => some ⟨.focusFarVar, .oneByte (nib 0x0 value), h.sender, h.receiver⟩
  | .focusNearVar h value => some ⟨.focusNearVar, .oneByte (nib 0x0 value), h.sender, h.receiver⟩
  | .ptDrive h panSpeed tiltSpeed panDir tiltDir => some ⟨.ptDrive, .ptDrive panSpeed tiltSpeed panDir tiltDir, h.sender, h.receiver⟩
  | .memoryRecall h index => some ⟨.memoryRecall, .memory index 0x02, h.sender, h.receiver⟩
  | .memorySet h index => some ⟨.memorySet, .memory index 0x01, h.sender, h.receiver⟩
  | .clear h => some ⟨.clear, .none, h.sender, h.receiver⟩
  | .motionSync h value => some ⟨.motionSync, .oneByte value, h.sender, h.receiver⟩
  | .presetSpeed h value => some ⟨.presetSpeed, .oneByte value, h.sender, h.receiver⟩
  | .ptAbs h panSpeed tiltSpeed panPos tiltPos => some ⟨.ptAbs, .ptPosition panSpeed tiltSpeed panPos tiltPos, h.sender, h.receiver⟩
  | .ptRel h panSpeed tiltSpeed panPos tiltPos => some ⟨.ptRel, .ptPosition panSpeed tiltSpeed panPos tiltPos, h.sender, h.receiver⟩
  | .ptHome h => some ⟨.ptHome, .none, h.sender, h.receiver⟩
  | .ptReset h => some ⟨.ptReset, .none, h.sender, h.receiver⟩
  | .cancel h socket => some ⟨.cancel, .socket socket, h.sender, h.receiver⟩
  | .menuEnter h => some ⟨.menuEnter, .none, h.sender, h.receiver⟩
  | .menuEnterVariant h => some ⟨.menuEnter, .none, h.sender, h.receiver⟩
  | .menuReturn h => some ⟨.menuReturn, .none, h.sender, h.receiver⟩
  | .menuMode h value => some ⟨.menuMode, .oneByte value, h.sender, h.receiver⟩
  | .menuModeInq h => some ⟨.menuModeInq, .none, h.sender, h.receiver⟩
  | .brightPosDirect h value => some ⟨.brightPosDirect, .twoByte value, h.sender, h.receiver⟩
  | .brightPosInq h => some ⟨.brightPosInq, .none, h.sender, h.receiver⟩
  | .colorTempDirect h value => some ⟨.colorTempDirect, .oneByte value, h.sender, h.receiver⟩
  | .colorTempInq h => some ⟨.colorTempInq, .none, h.sender, h.receiver⟩
  | .flicker h value => some ⟨.flicker, .oneByte (nib 0x0 value), h.sender, h.receiver⟩
  | .flickerInq h => some ⟨.flickerInq, .none, h.sender, h.receiver⟩
  | .gainLimit h value => some ⟨.gainLimit, .oneByte (nib 0x0 value), h.sender, h.receiver⟩
  | .gainLimitInq h => some ⟨.gainLimitInq, .none, h.sender, h.receiver⟩
  | .wbMode h value => some ⟨.wbMode, .oneByte (nib 0x0 value), h.sender, h.receiver⟩
  | .wbModeInq h => some ⟨.wbModeInq, .none, h.sender, h.receiver⟩
  | .focusAuto h => some ⟨.focusAuto, .none, h.sender, h.receiver⟩
  | .focusManual h => some ⟨.focusManual, .none, h.sender, h.receiver⟩
  | .focusModeInq h => some ⟨.focusModeInq, .none, h.sender, h.receiver⟩
  | .aeMode h value => some ⟨.aeMode, .oneByte value, h.sender, h.receiver⟩
  | .aeModeInq h => some ⟨.aeModeInq, .none, h.sender, h.receiver⟩
  | .apertureDirect h value => some ⟨.apertureDirect, .twoByte value, h.sender, h.receiver⟩
  | .apertureInq h => some ⟨.apertureInq, .none, h.sender, h.receiver⟩
  | .rgainDirect h value => some ⟨.rgainDirect, .twoByte value, h.sender, h.receiver⟩
  | .rgainInq h => some ⟨.rgainInq, .none, h.sender, h.receiver⟩
  | .bgainDirect h value => some ⟨.bgainDirect, .twoByte value, h.sender, h.receiver⟩
  | .bgainInq h => some ⟨.bgainInq, .none, h.sender, h.receiver⟩
  | .zoomDirect h value => some ⟨.zoomDirect, .twoByte value, h.sender, h.receiver⟩
  | .zoomPosInq h => some ⟨.zoomPosInq, .none, h.sender, h.receiver⟩
  | .focusDirect h value => some ⟨.focusDirect, .twoByte value, h.sender, h.receiver⟩
  | .focusPosInq h => some ⟨.focusPosInq, .none, h.sender, h.receiver⟩
  | .colorGainDirect h value => some ⟨.colorGainDirect, .twoByte value, h.sender, h.receiver⟩
  | .colorGainInq h => some ⟨.colorGainInq, .none, h.sender, h.receiver⟩
  | .shutterDirect h value => some ⟨.shutterDirect, .twoByte value, h.sender, h.receiver⟩
  | .shutterInq h => some ⟨.shutterInq, .none, h.sender, h.receiver⟩
  | .irisDirect h value => some ⟨.irisDirect, .twoByte value, h.sender, h.receiver⟩
  | .irisInq h => some ⟨.irisInq, .none, h.sender, h.receiver⟩
  | .colorHueDirect h value => some ⟨.colorHueDirect, .twoByte value, h.sender, h.receiver⟩
  | .colorHueInq h => some ⟨.colorHueInq, .none, h.sender, h.receiver⟩
  | .lrReverse h value => some ⟨.lrReverse, .oneByte value, h.sender, h.receiver⟩
  | .lrReverseInq h => some ⟨.lrReverseInq, .none, h.sender, h.receiver⟩
  | .pictureEffect h value => some ⟨.pictureEffect, .oneByte value, h.sender, h.receiver⟩
  | .pictureEffectInq h => some ⟨.pictureEffectInq, .none, h.sender, h.receiver⟩
  | .pictureFlip h value => some ⟨.pictureFlip, .oneByte value, h.sender, h.receiver⟩
  | .pictureFlipInq h => some ⟨.pictureFlipInq, .none, h.sender, h.receiver⟩
  | .brightnessDirect h value => some ⟨.brightnessDirect, .twoByte value, h.sender, h.receiver⟩
  | .brightnessInq h => some ⟨.brightnessInq, .none, h.sender, h.receiver⟩
  | .contrastDirect h value => some ⟨.contrastDirect, .twoByte value, h.sender, h.receiver⟩
  | .contrastInq h => some ⟨.contrastInq, .none, h.sender, h.receiver⟩
  | .awbSens h value => some ⟨.awbSens, .oneByte (nib 0x0 value), h.sender, h.receiver⟩
  | .awbSensInq h => some ⟨.awbSensInq, .none, h.sender, h.receiver⟩
  | .extract _ | .serialize _ _ _ _ | .classify _ | .template _ | .codec _ _ _ _ | .decode _
  | .encode _ _ _ _ _ => none

/-- R90, R289: the instruction a message's frame decodes to in the reference registry: itself, but for
the payloads an earlier row takes. -/
def shadowedBy (i : Instr) : Instr :=
  match i with
  | .respP h value => .respByte h (nib 0 value)
  | .camnumReply h index => if index = 1 then .camnumQuery h else .camnumReply h index
  | .menuMode h value =>
    if value = 5 then .menuEnter h else if value = 4 then .menuReturn h else .menuMode h value
  | other => other

/-! ## The host's numbering of an instruction's bits -/

/-- The first `nbits` bits of `w` as bytes, bit 0 the least significant bit of the first byte. -/
def tableBytes (nbits w : Nat) : List Byte :=
  (List.range ((nbits + 7) / 8)).map fun k => BitVec.ofNat 8 (w / 2 ^ (8 * k))

/-- A word of the opcode table in the hardware's form: a row of the `op` field (R101, 3 bits) is a port
request whose other fields are zero, and a message row's payload stands in a frame with sender 0 and
receiver 0. -/
def tableCode (nbits w : Nat) : Code :=
  if nbits ≤ 8 ∧ w < 8 then .port { op := BitVec.ofNat 3 w }
  else .wire (frame ⟨1, 0, 0⟩ (tableBytes nbits w))

/-- The instruction the decoder reads from a word of the opcode table. -/
def decodeTableWord (nbits w : Nat) : Option Instr := decode (tableCode nbits w)

end Sys2Proof
end

