-- ==== Sys2Proof/Machine/State.lean ====
section
/-! DEFINITION. The state of the machine as plain data: the configuration with the registry ROM (R28, R29), the
OUT buffers of the answered requests (R51), the stream harness (R38, R278), and the model's own lists of pending
inputs and answered responses. With it the response records (R31, R35, R36, R37, R101), the faults and the
refusals, and the state after reset (R44). -/

namespace Sys2Proof.Machine

/-! ## Status values (R37) -/

/-- R37: the outcome of DECODE. -/
inductive DStatus where
  | incomplete
  | corrupt
  | unknownMsg
  | message
  deriving DecidableEq, Repr

/-- R37: the outcome of EXTRACT. -/
inductive XStatus where
  | incomplete
  | corrupt
  | frame
  deriving DecidableEq, Repr

/-- R37: the outcome of CLASSIFY. -/
inductive CStatus where
  | unknown
  | matched
  deriving DecidableEq, Repr

/-- R37: why a frame is corrupt. -/
inductive CorruptReason where
  | termAtZero
  | overCapacity
  deriving DecidableEq, Repr

/-- R37, R255: the errors an encode-side request raises. -/
inductive EncError where
  | unknownKind
  | paramShape
  | paramRange
  | addressRange
  | capacity
  deriving DecidableEq, Repr

/-- R37: the status of an encode-side request. -/
inductive EStatus where
  | ok
  | error (e : EncError)
  deriving DecidableEq, Repr

/-! ## Response records. A field that is not valid holds no value (R35). -/

/-- R31: a frame. -/
structure Frame where
  sender : BitVec 3
  receiver : BitVec 4
  payload : List Byte
  deriving DecidableEq, Repr

/-- R101, R105: the response of EXTRACT. -/
structure ExtractResponse where
  status : XStatus
  reason : Option CorruptReason
  frame : Option Frame
  consumed : Option Int
  deriving DecidableEq, Repr

/-- R101, R122: the response of CLASSIFY. -/
structure ClassifyResponse where
  status : CStatus
  kind : Option Kind
  row : Option Nat
  params : Option Params
  deriving DecidableEq, Repr

/-- R101, R126, R256: the response of TEMPLATE. A length is valid on an error only (log entry 19). -/
structure TemplateResponse where
  status : EStatus
  length : Option Nat
  definition : Option Entry
  row : Option Nat
  deriving DecidableEq, Repr

/-- R36: the response of SERIALIZE and of ENCODE. `bytes` are the first `length` bytes written into OUT. -/
structure EncodeResponse where
  status : EStatus
  length : Nat
  bytes : Option (List Byte)
  deriving DecidableEq, Repr

/-- R101, R167: the response of CODEC: parameters in the decode direction, the work buffer in the encode
direction. A length is valid on an error only (R256, log entry 19). -/
structure CodecResponse where
  status : EStatus
  length : Option Nat
  params : Option Params
  work : Option (List Byte)
  deriving DecidableEq, Repr

/-- R35: the response of DECODE. -/
structure DecodeResponse where
  status : DStatus
  consumed : Option Int
  sender : Option (BitVec 3)
  receiver : Option (BitVec 4)
  kind : Option Kind
  params : Option Params
  reason : Option CorruptReason
  deriving DecidableEq, Repr

/-- One response of a request port. -/
inductive Response where
  | extract (r : ExtractResponse)
  | serialize (r : EncodeResponse)
  | classify (r : ClassifyResponse)
  | template (r : TemplateResponse)
  | codec (r : CodecResponse)
  | decode (r : DecodeResponse)
  | encode (r : EncodeResponse)
  deriving DecidableEq, Repr

/-! ## The stream harness -/

/-- R38: the state of the connection. -/
inductive Conn where
  | opened
  | closed
  deriving DecidableEq, Repr

/-- R278: the harness's observable events. `offset` is the stream offset of the frame's first byte. -/
inductive Event where
  | msg (offset : Nat) (sender : BitVec 3) (receiver : BitVec 4) (kind : Kind) (params : Params)
  | unknown (offset : Nat) (sender : BitVec 3) (receiver : BitVec 4) (payload : List Byte)
  | corrupt (offset : Nat) (reason : CorruptReason)
  | overflow (offset : Nat)
  | sent (length : Nat)
  | encodeError (status : EStatus)
  deriving DecidableEq, Repr

/-- Which part of a harness step is under way. One harness step issues several requests and one request
is one step (R4), so the loop of POLL stands between steps: `polling` inside a POLL of its own, and
`receiving` inside the POLL of a RECV, after which the bound RX_MAX is tested (R276). -/
inductive Task where
  | idle
  | polling
  | receiving
  deriving DecidableEq, Repr

/-- What the outside world presents: a request at the port (R101) or a harness step (R276 to R280). -/
inductive Input where
  | request (r : PortRequest)
  | recv (bytes : List Byte)
  | poll
  | send (kind : Kind) (params : Params) (sender receiver : Byte)
  | openConn
  | closeConn
  deriving DecidableEq, Repr

/-! ## Memory -/

/-- A byte space as (index, byte) cells, the indices strictly rising; an index not listed holds no
value. -/
abbrev Memory := List Host.Cell

/-! ## The state -/

/-- The whole machine. -/
structure State where
  /-- R28, R29, R276: the configuration constants and the registry ROM. No step changes them. -/
  cfg : Config
  /-- R51, R53, R68: the OUT buffers, one for each SERIALIZE and ENCODE answered at the ports, oldest first, each
  as its request left it. A buffer belongs to that one request: no other reads or writes it. -/
  outs : List Memory
  /-- R38: the accumulated, not yet consumed bytes. -/
  rx : List Byte
  /-- R27, R38: the stream offset of `rx[0]`. -/
  cur : Nat
  /-- R38: whether the connection is open. -/
  conn : Conn
  /-- R38: the bytes sent on the connection. -/
  tx : List Byte
  /-- R278, R295: the events, oldest first. -/
  events : List Event
  /-- The model's own: the part of a harness step under way. -/
  task : Task
  /-- The model's own: the inputs presented and not yet taken, the next one first. -/
  inputs : List Input
  /-- The model's own: the responses answered at the request ports, oldest first. Nothing reads it. -/
  responses : List Response
  deriving DecidableEq, Repr

/-- Why the machine stops with a fault. No step reaches one. -/
inductive Fault where
  /-- R19: a byte access outside its buffer; raised by the buffer and OUT accesses. Safe: the spec says
  such an access never occurs in a well-formed configuration and is to be a fault. -/
  | bufferRange
  /-- R35: a read of a response field that holds no value; raised by the field readers. Safe: the spec
  asks for a fault. -/
  | invalidField
  deriving DecidableEq, Repr

/-- Why the machine refuses. -/
inductive Refusal where
  /-- An instruction without a meaning yet; raised by an arm of `exec` only. Safe. -/
  | notModelled (mnemonic : String)
  /-- R102, R271: a request outside the block's operations; raised when the request is taken. Safe: the
  spec says the model refuses it. -/
  | port (why : PortReject)
  /-- R110, R271: a SERIALIZE payload longer than CAP; raised by SERIALIZE. Safe: the spec says the
  model refuses it. -/
  | payloadOverCapacity
  /-- R119, R284: the configuration is ill-formed; raised by every instruction and every input. Safe: the
  spec says no request is answered. -/
  | illFormedConfiguration
  deriving DecidableEq, Repr

/-- The outcome of a step of this machine. -/
abbrev Result := Host.Outcome State Fault Refusal

/-- R44: the machine right after reset, with the reference configuration (R9, R129) and RX_MAX unbounded;
the harness at connection open. -/
def State.reset : State where
  cfg := ⟨refMaxFrame, refRegistry, none⟩
  outs := []
  rx := []
  cur := 0
  conn := .opened
  tx := []
  events := []
  task := .idle
  inputs := []
  responses := []

end Sys2Proof.Machine
end

