-- ==== Sys2Proof/Machine/Flags.lean ====
section
/-! DEFINITION. The condition outputs: the status codes of R37, the responses each status goes with (R35,
R36, R256), and the readers of response fields, which fault on a field that holds no value (R35). -/

namespace Sys2Proof.Machine

/-! ## Numeric codes (R37) -/

/-- R37. -/
def DStatus.code : DStatus → Nat
  | .incomplete => 0
  | .corrupt => 1
  | .unknownMsg => 2
  | .message => 3

/-- R37. -/
def XStatus.code : XStatus → Nat
  | .incomplete => 0
  | .corrupt => 1
  | .frame => 2

/-- R37. -/
def CStatus.code : CStatus → Nat
  | .unknown => 0
  | .matched => 1

/-- R37. -/
def CorruptReason.code : CorruptReason → Nat
  | .termAtZero => 0
  | .overCapacity => 1

/-- R37. -/
def EStatus.code : EStatus → Nat
  | .ok => 0
  | .error .unknownKind => 1
  | .error .paramShape => 2
  | .error .paramRange => 3
  | .error .addressRange => 4
  | .error .capacity => 5

/-! ## The response of each status -/

/-- R106: no terminator; consume 0. -/
def ExtractResponse.needMore : ExtractResponse := ⟨.incomplete, none, none, some 0⟩

/-- R107, R108: no consumed count is reported. -/
def ExtractResponse.bad (reason : CorruptReason) : ExtractResponse := ⟨.corrupt, some reason, none, none⟩

/-- R109. -/
def ExtractResponse.found (f : Frame) (consumed : Nat) : ExtractResponse :=
  ⟨.frame, none, some f, some (consumed : Int)⟩

/-- R122: the kind is UNKNOWN (R34). -/
def ClassifyResponse.noRow : ClassifyResponse := ⟨.unknown, some .unknown, none, none⟩

/-- R122. -/
def ClassifyResponse.hit (kind : Kind) (row : Nat) (params : Params) : ClassifyResponse :=
  ⟨.matched, some kind, some row, some params⟩

/-- R126. -/
def TemplateResponse.hit (e : Entry) (row : Nat) : TemplateResponse := ⟨.ok, none, some e, some row⟩

/-- R256: an error response holds its status, the length 0 and no other valid field. -/
def TemplateResponse.failed (e : EncError) : TemplateResponse := ⟨.error e, some 0, none, none⟩

/-- R36, R113. -/
def EncodeResponse.done (bytes : List Byte) : EncodeResponse := ⟨.ok, bytes.length, some bytes⟩

/-- R36, R256: on an error the length is 0 and no other field is valid. -/
def EncodeResponse.failed (e : EncError) : EncodeResponse := ⟨.error e, 0, none⟩

/-- R167: the decode direction answers parameters. -/
def CodecResponse.decoded (p : Params) : CodecResponse := ⟨.ok, none, some p, none⟩

/-- R167: the encode direction answers the work buffer. -/
def CodecResponse.encoded (work : List Byte) : CodecResponse := ⟨.ok, none, none, some work⟩

/-- R256: the status, the length 0 and no other valid field. -/
def CodecResponse.failed (e : EncError) : CodecResponse := ⟨.error e, some 0, none, none⟩

/-- R35: INCOMPLETE has `consumed = 0` and nothing else. -/
def DecodeResponse.needMore : DecodeResponse := ⟨.incomplete, some 0, none, none, none, none, none⟩

/-- R35: CORRUPT has `consumed = -1` and the reason. -/
def DecodeResponse.bad (reason : CorruptReason) : DecodeResponse :=
  ⟨.corrupt, some (-1), none, none, none, none, some reason⟩

/-- R35, R163: UNKNOWN_MSG has the consumed count, both addresses and the kind UNKNOWN. -/
def DecodeResponse.noRow (consumed : Int) (sender : BitVec 3) (receiver : BitVec 4) : DecodeResponse :=
  ⟨.unknownMsg, some consumed, some sender, some receiver, some .unknown, none, none⟩

/-- R35: MESSAGE has every field but the reason. -/
def DecodeResponse.hit (consumed : Int) (sender : BitVec 3) (receiver : BitVec 4) (kind : Kind)
    (params : Params) : DecodeResponse :=
  ⟨.message, some consumed, some sender, some receiver, some kind, some params, none⟩

/-! ## Reading a field -/

/-- R35: a field that is not valid holds no value, and reading it is a fault. -/
def readField {α : Type} (field : Option α) : Except Fault α :=
  match field with
  | some v => .ok v
  | none => .error .invalidField

end Sys2Proof.Machine
end

