-- ==== Sys2Proof/Machine/Registry.lean ====
section
/-! DEFINITION. The registry as a configured part: the layout data a well-formed row must fit (R153 and the
bits a codec writes), the conditions W1 to W8 of R119 with the bounds on MAX_FRAME (R9) and RX_MAX (R276),
row overlap (R124), and the configuration of a block (R119, R284). -/

namespace Sys2Proof

/-- R9, R28: the payload capacity. -/
def Config.cap (c : Config) : Nat := c.maxFrame - 2

/-- R29, R120: the definition rows, without the sentinel. -/
def Config.rows (c : Config) : List Entry := c.registry.dropLast

/-- R153: the least payload length that holds every field of a codec. -/
def CodecId.minLen : CodecId → Nat
  | .none => 0
  | .byteCmd => 4
  | .byteRsp => 2
  | .pCmd => 4
  | .pRsp => 2
  | .pqCmd => 5
  | .pqRsp => 3
  | .pqrsCmd => 7
  | .pqrsRsp => 5
  | .ptAbs => 13
  | .ptResp => 9
  | .ptDrive => 7
  | .socket => 1
  | .error => 2
  | .camnum => 2
  | .memory => 5

/-- R80, R151, R156: the bits the encode direction writes, as (offset, bits of the byte). The MEMORY mode is
read only. -/
def CodecId.writes : CodecId → List (Nat × Byte)
  | .none => []
  | .byteCmd => [(3, 0xFF)]
  | .byteRsp => [(1, 0xFF)]
  | .pCmd => [(3, 0x0F)]
  | .pRsp => [(1, 0x0F)]
  | .pqCmd => [(3, 0x0F), (4, 0x0F)]
  | .pqRsp => [(1, 0x0F), (2, 0x0F)]
  | .pqrsCmd => [(3, 0x0F), (4, 0x0F), (5, 0x0F), (6, 0x0F)]
  | .pqrsRsp => [(1, 0x0F), (2, 0x0F), (3, 0x0F), (4, 0x0F)]
  | .ptAbs =>
    [(3, 0xFF), (4, 0xFF), (5, 0x0F), (6, 0x0F), (7, 0x0F), (8, 0x0F), (9, 0x0F), (10, 0x0F), (11, 0x0F),
     (12, 0x0F)]
  | .ptResp =>
    [(1, 0x0F), (2, 0x0F), (3, 0x0F), (4, 0x0F), (5, 0x0F), (6, 0x0F), (7, 0x0F), (8, 0x0F)]
  | .ptDrive => [(3, 0xFF), (4, 0xFF), (5, 0xFF), (6, 0xFF)]
  | .socket => [(0, 0x0F)]
  | .error => [(0, 0x0F), (1, 0xFF)]
  | .camnum => [(1, 0x0F)]
  | .memory => [(4, 0xFF)]

/-- R119 W4: every variable bit of the signature is 0. -/
def Entry.zeroVariable (e : Entry) : Bool :=
  (List.zipWith (fun s m => s &&& ~~~m) e.signature e.mask).all (· == 0)

/-- R119 W8: every bit the codec writes is a variable bit. -/
def Entry.writesVariable (e : Entry) : Bool :=
  e.codec.writes.all fun w => e.mask.getD w.1 0xFF &&& w.2 == 0

/-- R119 W2 to W8: a well-formed definition row under a payload capacity. -/
def Entry.wf (cap : Nat) (e : Entry) : Bool :=
  decide (1 ≤ e.length) && decide (e.length ≤ cap)
    && e.signature.length == e.length && e.mask.length == e.length
    && e.zeroVariable
    && !e.signature.contains terminator
    && e.kind != .unknown
    && decide (e.codec.minLen ≤ e.length)
    && e.writesVariable

/-- R119 W1: the last entry has length 0; W2 says that no other has. -/
def Config.endsInSentinel (c : Config) : Bool :=
  match c.registry.getLast? with
  | some e => e.length == 0
  | none => false

/-- R276: RX_MAX is unbounded or at least MAX_FRAME. -/
def Config.rxMaxWf (c : Config) : Bool :=
  match c.rxMax with
  | some n => decide (c.maxFrame ≤ n)
  | none => true

/-- R119, R9, R276: a configuration a block may be built with. -/
def Config.wf (c : Config) : Bool :=
  decide (2 ≤ c.maxFrame) && c.endsInSentinel && c.rows.all (·.wf c.cap) && c.rxMaxWf

/-- R124: two rows agree on every bit that both fix, and have equal lengths. -/
def Entry.overlaps (a b : Entry) : Bool :=
  a.length == b.length
    && List.zipWith (· &&& ·) a.signature b.mask == List.zipWith (· &&& ·) b.signature a.mask

/-- R119, R284: building a block; an ill-formed configuration is refused and no block exists. -/
def Machine.configure (c : Config) : Except Machine.Refusal Machine.State :=
  if c.wf then .ok { Machine.State.reset with cfg := c } else .error .illFormedConfiguration

end Sys2Proof
end

