-- ==== Sys2Proof/Machine/Operands.lean ====
section
/-! DEFINITION. The parameter codec unit: one-byte accesses to a buffer (R19, R60), the operand fields
(R81 to R85, R133, R134, R152), and the 16 codecs in both directions (R135 to R155). -/

namespace Sys2Proof.Machine

/-- How an encode-side request ends early: it raises an error (R20), or a byte access leaves its buffer
(R19). -/
inductive Stop where
  | raised (e : EncError)
  | fault (f : Fault)
  deriving DecidableEq, Repr

/-! ## Byte accesses -/

/-- R19: `MemRead(B, i, 1)`. -/
def memRead (b : List Byte) (i : Nat) : Except Fault Byte :=
  match b[i]? with
  | some v => .ok v
  | none => .error .bufferRange

/-- R19: `MemWrite(B, i, 1, v)`. -/
def memWrite (b : List Byte) (i : Nat) (v : Byte) : Except Fault (List Byte) :=
  if i < b.length then .ok (b.set i v) else .error .bufferRange

/-! ## Fields -/

/-- R134: one digit, OR-ed into the low nibble of a byte; the high nibble stays. -/
def orDigit (b : List Byte) (o : Nat) (d : Nibble) : Except Fault (List Byte) := do
  memWrite b o ((← memRead b o) ||| nib 0 d)

/-- R152: an additive write, `P[o] <- add8(P[o], v)`, modulo 256 (R18). -/
def addByte (b : List Byte) (o : Nat) (v : Byte) : Except Fault (List Byte) := do
  memWrite b o ((← memRead b o) + v)

/-- R82: the low nibble of a byte, zero-extended to 8 bits. -/
def readDigit (b : List Byte) (o : Nat) : Except Fault Byte := do
  .ok (nib 0 (low (← memRead b o)))

/-- R133: two digits, the most significant first. -/
def unpack2 (b : List Byte) (o : Nat) : Except Fault Byte := do
  .ok (low (← memRead b o) ++ low (← memRead b (o + 1)))

/-- R133: four digits, the most significant first. -/
def unpack4 (b : List Byte) (o : Nat) : Except Fault Half := do
  .ok (quad (← memRead b o) (← memRead b (o + 1)) (← memRead b (o + 2)) (← memRead b (o + 3)))

/-- R134: two digits. -/
def pack2 (b : List Byte) (o : Nat) (v : Byte) : Except Fault (List Byte) := do
  let b ← orDigit b o (v.extractLsb' 4 4)
  orDigit b (o + 1) (v.extractLsb' 0 4)

/-- R134: four digits. -/
def pack4 (b : List Byte) (o : Nat) (v : Half) : Except Fault (List Byte) := do
  let b ← orDigit b o (v.extractLsb' 12 4)
  let b ← orDigit b (o + 1) (v.extractLsb' 8 4)
  let b ← orDigit b (o + 2) (v.extractLsb' 4 4)
  orDigit b (o + 3) (v.extractLsb' 0 4)

/-! ## The codecs -/

/-- R135: the one variant a codec reads and writes. -/
def codecShape : CodecId → Shape
  | .none => .none
  | .byteCmd | .byteRsp | .pCmd | .pRsp | .pqCmd | .pqRsp => .oneByte
  | .pqrsCmd | .pqrsRsp => .twoByte
  | .ptAbs | .ptResp => .ptPosition
  | .ptDrive => .ptDrive
  | .socket => .socket
  | .error => .errorReply
  | .camnum => .cameraNumber
  | .memory => .memory

/-- R136 to R151, R155: the decode direction. -/
def codecDecode (c : CodecId) (b : List Byte) : Except Fault Params :=
  match c with
  | .none => .ok .none
  | .byteCmd => do .ok (.oneByte (← memRead b 3))
  | .byteRsp => do .ok (.oneByte (← memRead b 1))
  | .pCmd => do .ok (.oneByte (← readDigit b 3))
  | .pRsp => do .ok (.oneByte (← readDigit b 1))
  | .pqCmd => do .ok (.oneByte (← unpack2 b 3))
  | .pqRsp => do .ok (.oneByte (← unpack2 b 1))
  | .pqrsCmd => do .ok (.twoByte (← unpack4 b 3))
  | .pqrsRsp => do .ok (.twoByte (← unpack4 b 1))
  | .ptAbs => do .ok (.ptPosition (← memRead b 3) (← memRead b 4) (← unpack4 b 5) (← unpack4 b 9))
  | .ptResp => do .ok (.ptPosition 0 0 (← unpack4 b 1) (← unpack4 b 5))
  | .ptDrive => do .ok (.ptDrive (← memRead b 3) (← memRead b 4) (← memRead b 5) (← memRead b 6))
  | .socket => do .ok (.socket (low (← memRead b 0)))
  | .error => do .ok (.errorReply (low (← memRead b 0)) (← memRead b 1))
  | .camnum => do .ok (.cameraNumber (low (← memRead b 1)))
  | .memory => do .ok (.memory (← memRead b 4) (← memRead b 3))

/-- R154: the parameter check; a codec-less row ignores its parameters (R136). -/
def codecCheck (c : CodecId) (prm : Params) : Except EncError Unit :=
  if c = .none then .ok ()
  else if prm.shape ≠ codecShape c then .error .paramShape
  else
    match c, prm with
    | .pCmd, .oneByte v | .pRsp, .oneByte v => if v.toNat > 15 then .error .paramRange else .ok ()
    | _, _ => .ok ()

/-- R136 to R151: the writes of the encode direction, on a buffer in place. A parameter of another variant
writes nothing; R154 turns it away first. -/
def codecWrite (c : CodecId) (b : List Byte) (prm : Params) : Except Fault (List Byte) :=
  match c, prm with
  | .byteCmd, .oneByte v => memWrite b 3 v
  | .byteRsp, .oneByte v => memWrite b 1 v
  | .pCmd, .oneByte v => orDigit b 3 (low v)
  | .pRsp, .oneByte v => orDigit b 1 (low v)
  | .pqCmd, .oneByte v => pack2 b 3 v
  | .pqRsp, .oneByte v => pack2 b 1 v
  | .pqrsCmd, .twoByte v => pack4 b 3 v
  | .pqrsRsp, .twoByte v => pack4 b 1 v
  | .ptAbs, .ptPosition panSpeed tiltSpeed panPos tiltPos => do
    let b ← memWrite b 3 panSpeed
    let b ← memWrite b 4 tiltSpeed
    let b ← pack4 b 5 panPos
    pack4 b 9 tiltPos
  | .ptResp, .ptPosition _ _ panPos tiltPos => do
    let b ← pack4 b 1 panPos
    pack4 b 5 tiltPos
  | .ptDrive, .ptDrive panSpeed tiltSpeed panDir tiltDir => do
    let b ← memWrite b 3 panSpeed
    let b ← memWrite b 4 tiltSpeed
    let b ← memWrite b 5 panDir
    memWrite b 6 tiltDir
  | .socket, .socket z => addByte b 0 (nib 0 z)
  | .error, .errorReply z code => do
    let b ← addByte b 0 (nib 0 z)
    addByte b 1 code
  | .camnum, .cameraNumber index => addByte b 1 (nib 0 index)
  | .memory, .memory index _ => memWrite b 4 index
  | .none, _ => .ok b
  | _, _ => .ok b

/-- R155: the encode direction, the check and then the writes. -/
def codecEncode (c : CodecId) (b : List Byte) (prm : Params) : Except Stop (List Byte) :=
  match codecCheck c prm with
  | .error e => .error (.raised e)
  | .ok () =>
    match codecWrite c b prm with
    | .error f => .error (.fault f)
    | .ok b' => .ok b'

end Sys2Proof.Machine
end

