-- ==== Sys2Proof/Machine/Ops.lean ====
section
/-! DEFINITION. The shared operations: the byte space OUT (R51, R53), the state updates, raising an error
(R20, R256, R267), the gate of a configured block (R119), and the functions of the three units and the
sequencer: EXTRACT (R105), CLASSIFY (R122), TEMPLATE (R126), SERIALIZE (R110), DECODE (R161), ENCODE
(R164) and CODEC (R167), each a function of the configuration and its operands (R4, R43). -/

namespace Sys2Proof.Machine

/-! ## The byte space OUT -/

/-- The byte at an index; nothing where none was written. -/
def Memory.read (m : Memory) (i : Nat) : Option Byte :=
  match m with
  | [] => none
  | c :: rest => if c.1 = i then some c.2 else Memory.read rest i

/-- Writes one byte; the cells stay in rising order. -/
def Memory.write (m : Memory) (i : Nat) (v : Byte) : Memory :=
  match m with
  | [] => [(i, v)]
  | c :: rest =>
    if i < c.1 then (i, v) :: c :: rest
    else if i = c.1 then (i, v) :: rest
    else c :: Memory.write rest i v

/-- The canonical form: indices strictly rising. No cell equals what an unlisted index reads as, since that
is no value. -/
def Memory.wf (m : Memory) : Bool := decide (m.Pairwise fun a b => a.1 < b.1)

/-- The cells that hold a byte sequence from an index upward. -/
def cellsFrom (i : Nat) : List Byte → Memory
  | [] => []
  | b :: bs => (i, b) :: cellsFrom (i + 1) bs

/-- R51, R110: the byte space OUT of a request as its caller hands it in. -/
def callerOut (out : OutBuffer) : Memory := cellsFrom 0 (out.held.take out.capacity)

/-- R19: `MemWrite(OUT, i, 1, v)` into a buffer of the given capacity. -/
def outWrite (capacity : Nat) (m : Memory) (i : Nat) (v : Byte) : Except Fault Memory :=
  if i < capacity then .ok (m.write i v) else .error .bufferRange

/-- R110: writes a byte sequence from an index upward. -/
def outWriteAll (capacity : Nat) (m : Memory) (i : Nat) : List Byte → Except Fault Memory
  | [] => .ok m
  | b :: bs => do outWriteAll capacity (← outWrite capacity m i b) (i + 1) bs

/-- R36: the `n` bytes of OUT from an index upward. -/
def outReadAll (m : Memory) (i : Nat) : Nat → Except Fault (List Byte)
  | 0 => .ok []
  | n + 1 =>
    match m.read i with
    | some v => do .ok (v :: (← outReadAll m (i + 1) n))
    | none => .error .bufferRange

/-! ## State updates -/

/-- Answers a response at a request port. -/
def State.answer (s : State) (r : Response) : State := { s with responses := s.responses ++ [r] }

/-- R278: emits an event. -/
def State.emit (s : State) (e : Event) : State := { s with events := s.events ++ [e] }

/-- R277: drops consumed bytes from `rx` and advances the cursor (R27). -/
def State.advance (s : State) (n : Nat) : State := { s with rx := s.rx.drop n, cur := s.cur + n }

/-- R277, R280: closes the connection and discards `rx`. -/
def State.shut (s : State) : State := { s with conn := .closed, rx := [] }

/-- R276: appends received bytes. -/
def State.receive (s : State) (bytes : List Byte) : State := { s with rx := s.rx ++ bytes }

/-- R279: appends sent bytes. -/
def State.transmit (s : State) (bytes : List Byte) : State := { s with tx := s.tx ++ bytes }

/-- R280: a new connection, a harness instance with its own state. -/
def State.openNew (s : State) : State :=
  { s with rx := [], cur := 0, tx := [], conn := .opened, events := [], task := .idle }

/-- The harness step under way. -/
def State.withTask (s : State) (t : Task) : State := { s with task := t }

/-- R68: hands a request's own OUT buffer back to its caller, beside those of the requests before it. -/
def State.handBack (s : State) (m : Memory) : State := { s with outs := s.outs ++ [m] }

/-- Takes the next input: the list that remains. -/
def State.withInputs (s : State) (rest : List Input) : State := { s with inputs := rest }

/-! ## Ending a request -/

/-- R20, R256, R267: `raise E`. The request ends with the error response; no state is saved, no mode
changes, control goes nowhere, and neither OUT nor WORK is written. There is no return from it (R268):
the next request starts from this same state. -/
def raiseError (answer : EncError → Response) (e : EncError) (s : State) : Result :=
  .next (s.answer (answer e))

/-- R20: ends a request that raises nothing. -/
def answerWith {α : Type} (answer : α → Response) (r : Except Fault α) (s : State) : Result :=
  match r with
  | .ok a => .next (s.answer (answer a))
  | .error f => .fault f

/-- R119, R284: a block with an ill-formed configuration does not exist, and no request is answered. -/
def whenConfigured (s : State) (r : Result) : Result :=
  if s.cfg.wf then r else .refused .illFormedConfiguration

/-! ## The framer -/

/-- R105: EXTRACT, its checks in the order of R266. -/
def vcuExtract (cfg : Config) (buf : List Byte) : Except Fault ExtractResponse :=
  match findTerminator buf with
  | none => .ok .needMore
  | some t =>
    if t = 0 then .ok (.bad .termAtZero)
    else if cfg.cap < t - 1 then .ok (.bad .overCapacity)
    else do
      let hdr ← memRead buf 0
      .ok (.found ⟨hdr.extractLsb' 4 3, hdr.extractLsb' 0 4, (buf.drop 1).take (t - 1)⟩ (t + 1))

/-- R74, R113: the header byte of an encoded frame. -/
def headerByte (sender receiver : Byte) : Byte := 0x80 ||| (sender <<< 4) ||| receiver

/-- R110: the writes of a SERIALIZE whose checks passed, and the bytes written. -/
def serializeWrites (sender receiver : Byte) (payload : List Byte) (capacity : Nat) (out : Memory) :
    Except Fault (Memory × EncodeResponse) := do
  let m ← outWrite capacity out 0 (headerByte sender receiver)
  let m ← outWriteAll capacity m 1 payload
  let m ← outWrite capacity m (payload.length + 1) terminator
  .ok (m, .done (← outReadAll m 0 (payload.length + 2)))

/-- R110, R116: SERIALIZE, the address range before the capacity and both before any write. -/
def vcuSerialize (sender receiver : Byte) (payload : List Byte) (capacity : Nat) (out : Memory) :
    Except Stop (Memory × EncodeResponse) :=
  if sender.toNat > 7 ∨ receiver.toNat > 15 then .error (.raised .addressRange)
  else if payload.length + 2 > capacity then .error (.raised .capacity)
  else
    match serializeWrites sender receiver payload capacity out with
    | .ok r => .ok r
    | .error f => .error (.fault f)

/-! ## The classifier -/

/-- R122: the search from a row index upward; the first match wins (R124). -/
def classifyFrom (row : Nat) (rows : List Entry) (p : List Byte) : Except Fault ClassifyResponse :=
  match rows with
  | [] => .ok .noRow
  | e :: rest =>
    if e.admits p then do .ok (.hit e.kind row (← codecDecode e.codec p))
    else classifyFrom (row + 1) rest p

/-- R122: CLASSIFY. -/
def vcuClassify (cfg : Config) (p : List Byte) : Except Fault ClassifyResponse :=
  classifyFrom 0 cfg.rows p

/-- R126: the search for the first entry of a kind, with its index. -/
def templateFrom (row : Nat) (rows : List Entry) (k : Kind) : Except EncError (Entry × Nat) :=
  match rows with
  | [] => .error .unknownKind
  | e :: rest => if e.kind = k then .ok (e, row) else templateFrom (row + 1) rest k

/-- R126: TEMPLATE. -/
def vcuTemplate (cfg : Config) (k : Kind) : Except EncError (Entry × Nat) := templateFrom 0 cfg.rows k

/-! ## The sequencer -/

/-- R161: what DECODE answers for an extracted frame. -/
def decodeFrame (cfg : Config) (f : Frame) (consumed : Int) : Except Fault DecodeResponse := do
  let c ← vcuClassify cfg f.payload
  match c.status with
  | .unknown => .ok (.noRow consumed f.sender f.receiver)
  | .matched => .ok (.hit consumed f.sender f.receiver (← readField c.kind) (← readField c.params))

/-- R161: DECODE. -/
def vcuDecode (cfg : Config) (buf : List Byte) : Except Fault DecodeResponse := do
  let x ← vcuExtract cfg buf
  match x.status with
  | .incomplete => .ok .needMore
  | .corrupt => .ok (.bad (← readField x.reason))
  | .frame => decodeFrame cfg (← readField x.frame) (← readField x.consumed)

/-- R164, R165: ENCODE, its checks in order: kind, shape, range, address, capacity. -/
def vcuEncode (cfg : Config) (kind : Kind) (prm : Params) (sender receiver : Byte) (capacity : Nat)
    (out : Memory) : Except Stop (Memory × EncodeResponse) :=
  match vcuTemplate cfg kind with
  | .error e => .error (.raised e)
  | .ok (d, _) =>
    match codecEncode d.codec d.signature prm with
    | .error stop => .error stop
    | .ok p => vcuSerialize sender receiver p capacity out

/-- R167: CODEC. -/
def vcuCodec (dir : Dir) (c : CodecId) (work : List Byte) (prm : Params) : Except Stop CodecResponse :=
  if work.length < c.minLen then .error (.raised .capacity)
  else
    match dir with
    | .decode =>
      match codecDecode c work with
      | .ok p => .ok (.decoded p)
      | .error f => .error (.fault f)
    | .encode =>
      match codecEncode c work prm with
      | .ok w => .ok (.encoded w)
      | .error stop => .error stop

end Sys2Proof.Machine
end

