-- ==== Sys2Proof/Machine/Harness.lean ====
section
/-! DEFINITION. The stream harness (R276 to R280). POLL's loop stands between steps: one pass of it issues one
DECODE, and one request is one step (R4). -/

namespace Sys2Proof.Machine

/-- R276: more unframed bytes than RX_MAX. -/
def State.overflowing (s : State) : Bool :=
  match s.cfg.rxMax with
  | some n => decide (s.rx.length > n)
  | none => false

/-- R276, R277: POLL returns for want of bytes. Inside a RECV the bound RX_MAX is tested now. -/
def endPoll (s : State) : State :=
  match s.task with
  | .receiving =>
    if s.overflowing then ((s.emit (.overflow s.cur)).shut).withTask .idle else s.withTask .idle
  | .polling | .idle => s.withTask .idle

/-- R277: what one pass of POLL's loop does with a decode response; `bytes` are the bytes decoded. -/
def pollCase (bytes : List Byte) (d : DecodeResponse) (s : State) : Except Fault State :=
  match d.status with
  | .incomplete => .ok (endPoll s)
  | .corrupt => do
    let reason ← readField d.reason
    .ok (((s.emit (.corrupt s.cur reason)).shut).withTask .idle)
  | .unknownMsg => do
    let n := (← readField d.consumed).toNat
    let payload := (bytes.drop 1).take (n - 2)
    .ok ((s.emit (.unknown s.cur (← readField d.sender) (← readField d.receiver) payload)).advance n)
  | .message => do
    let n := (← readField d.consumed).toNat
    .ok ((s.emit (.msg s.cur (← readField d.sender) (← readField d.receiver) (← readField d.kind)
      (← readField d.params))).advance n)

/-- R277: one pass of POLL's loop over the bytes at the front of `rx`. On a closed connection the loop
ends (R280). -/
def pollOnce (bytes : List Byte) (s : State) : Result :=
  whenConfigured s
    (if s.conn = .closed then .next (s.withTask .idle)
     else
       match vcuDecode s.cfg bytes with
       | .error f => .fault f
       | .ok d =>
         match pollCase bytes d s with
         | .error f => .fault f
         | .ok s' => .next s')

/-- R276: RECV appends the bytes and starts its POLL; bytes after a close are discarded. -/
def runRecv (bytes : List Byte) (s : State) : Result :=
  .next (if s.conn = .closed then s else (s.receive bytes).withTask .receiving)

/-- R277: POLL on its own. -/
def runPoll (s : State) : Result := .next (if s.conn = .closed then s else s.withTask .polling)

/-- R279: SEND, with an OUT buffer of its own of MAX_FRAME bytes; the frame is appended to `tx` whole. -/
def runSend (kind : Kind) (prm : Params) (sender receiver : Byte) (s : State) : Result :=
  if s.conn = .closed then .next s
  else
    match vcuEncode s.cfg kind prm sender receiver s.cfg.maxFrame [] with
    | .ok (m, e) =>
      match outReadAll m 0 e.length with
      | .ok bytes => .next ((s.transmit bytes).emit (.sent e.length))
      | .error f => .fault f
    | .error (.raised e) => .next (s.emit (.encodeError (.error e)))
    | .error (.fault f) => .fault f

/-- R280: OPEN. -/
def runOpen (s : State) : Result := .next s.openNew

/-- R280: CLOSE. -/
def runClose (s : State) : Result := .next s.shut

/-- R119: with nothing presented, the block waits; it starts nothing by itself (R269). -/
def runIdle (s : State) : Result := whenConfigured s (.next s)

end Sys2Proof.Machine
end

