-- ==== Sys2Proof/Machine/Image.lean ====
section
/-! DEFINITION. The image and exposure messages, registry rows 37 to 81 (R210 to R254). A received message runs as one pass of POLL's loop over
its frame (R277): DECODE under the configured registry, the event, and the advance of `rx` and `cur`. The
VCU gives a message no further meaning (R7, R160). Under REF_REGISTRY the event is the one of the row's
own rule, named at each definition. -/

namespace Sys2Proof.Machine

/-- R210, row 37, `BRIGHT_POS_DIRECT`: brightness-position (exposure bright) direct. -/
def execBrightPosDirect (h : Header) (value : Half) (s : State) : Result :=
  pollOnce (wireBytes (.brightPosDirect h value)) s

/-- R211, row 38, `BRIGHT_POS_INQ`: brightness-position inquiry. -/
def execBrightPosInq (h : Header) (s : State) : Result :=
  pollOnce (wireBytes (.brightPosInq h)) s

/-- R212, row 39, `COLOR_TEMP_DIRECT`: color-temperature direct. -/
def execColorTempDirect (h : Header) (value : Byte) (s : State) : Result :=
  pollOnce (wireBytes (.colorTempDirect h value)) s

/-- R213, row 40, `COLOR_TEMP_INQ`: color-temperature inquiry. -/
def execColorTempInq (h : Header) (s : State) : Result :=
  pollOnce (wireBytes (.colorTempInq h)) s

/-- R214, row 41, `FLICKER`: flicker mode. -/
def execFlicker (h : Header) (value : Nibble) (s : State) : Result :=
  pollOnce (wireBytes (.flicker h value)) s

/-- R215, row 42, `FLICKER_INQ`: flicker mode inquiry. -/
def execFlickerInq (h : Header) (s : State) : Result :=
  pollOnce (wireBytes (.flickerInq h)) s

/-- R216, row 43, `GAIN_LIMIT`: gain limit. -/
def execGainLimit (h : Header) (value : Nibble) (s : State) : Result :=
  pollOnce (wireBytes (.gainLimit h value)) s

/-- R217, row 44, `GAIN_LIMIT_INQ`: gain limit inquiry. -/
def execGainLimitInq (h : Header) (s : State) : Result :=
  pollOnce (wireBytes (.gainLimitInq h)) s

/-- R218, row 45, `WB_MODE`: white-balance mode. -/
def execWbMode (h : Header) (value : Nibble) (s : State) : Result :=
  pollOnce (wireBytes (.wbMode h value)) s

/-- R219, row 46, `WB_MODE_INQ`: white-balance mode inquiry. -/
def execWbModeInq (h : Header) (s : State) : Result :=
  pollOnce (wireBytes (.wbModeInq h)) s

/-- R220, row 47, `FOCUS_AUTO`: focus mode auto. -/
def execFocusAuto (h : Header) (s : State) : Result :=
  pollOnce (wireBytes (.focusAuto h)) s

/-- R221, row 48, `FOCUS_MANUAL`: focus mode manual. -/
def execFocusManual (h : Header) (s : State) : Result :=
  pollOnce (wireBytes (.focusManual h)) s

/-- R222, row 49, `FOCUS_MODE_INQ`: focus mode inquiry. -/
def execFocusModeInq (h : Header) (s : State) : Result :=
  pollOnce (wireBytes (.focusModeInq h)) s

/-- R223, row 50, `AE_MODE`: auto-exposure mode. -/
def execAeMode (h : Header) (value : Byte) (s : State) : Result :=
  pollOnce (wireBytes (.aeMode h value)) s

/-- R224, row 51, `AE_MODE_INQ`: auto-exposure mode inquiry. -/
def execAeModeInq (h : Header) (s : State) : Result :=
  pollOnce (wireBytes (.aeModeInq h)) s

/-- R225, row 52, `APERTURE_DIRECT`: aperture direct. -/
def execApertureDirect (h : Header) (value : Half) (s : State) : Result :=
  pollOnce (wireBytes (.apertureDirect h value)) s

/-- R226, row 53, `APERTURE_INQ`: aperture inquiry. -/
def execApertureInq (h : Header) (s : State) : Result :=
  pollOnce (wireBytes (.apertureInq h)) s

/-- R227, row 54, `RGAIN_DIRECT`: R-gain direct. -/
def execRgainDirect (h : Header) (value : Half) (s : State) : Result :=
  pollOnce (wireBytes (.rgainDirect h value)) s

/-- R228, row 55, `RGAIN_INQ`: R-gain inquiry. -/
def execRgainInq (h : Header) (s : State) : Result :=
  pollOnce (wireBytes (.rgainInq h)) s

/-- R229, row 56, `BGAIN_DIRECT`: B-gain direct. -/
def execBgainDirect (h : Header) (value : Half) (s : State) : Result :=
  pollOnce (wireBytes (.bgainDirect h value)) s

/-- R230, row 57, `BGAIN_INQ`: B-gain inquiry. -/
def execBgainInq (h : Header) (s : State) : Result :=
  pollOnce (wireBytes (.bgainInq h)) s

/-- R231, row 58, `ZOOM_DIRECT`: zoom position direct. -/
def execZoomDirect (h : Header) (value : Half) (s : State) : Result :=
  pollOnce (wireBytes (.zoomDirect h value)) s

/-- R232, row 59, `ZOOM_POS_INQ`: zoom position inquiry. -/
def execZoomPosInq (h : Header) (s : State) : Result :=
  pollOnce (wireBytes (.zoomPosInq h)) s

/-- R233, row 60, `FOCUS_DIRECT`: focus position direct. -/
def execFocusDirect (h : Header) (value : Half) (s : State) : Result :=
  pollOnce (wireBytes (.focusDirect h value)) s

/-- R234, row 61, `FOCUS_POS_INQ`: focus position inquiry. -/
def execFocusPosInq (h : Header) (s : State) : Result :=
  pollOnce (wireBytes (.focusPosInq h)) s

/-- R235, row 62, `COLOR_GAIN_DIRECT`: color gain direct. -/
def execColorGainDirect (h : Header) (value : Half) (s : State) : Result :=
  pollOnce (wireBytes (.colorGainDirect h value)) s

/-- R236, row 63, `COLOR_GAIN_INQ`: color gain inquiry. -/
def execColorGainInq (h : Header) (s : State) : Result :=
  pollOnce (wireBytes (.colorGainInq h)) s

/-- R237, row 64, `SHUTTER_DIRECT`: shutter direct. -/
def execShutterDirect (h : Header) (value : Half) (s : State) : Result :=
  pollOnce (wireBytes (.shutterDirect h value)) s

/-- R238, row 65, `SHUTTER_INQ`: shutter inquiry. -/
def execShutterInq (h : Header) (s : State) : Result :=
  pollOnce (wireBytes (.shutterInq h)) s

/-- R239, row 66, `IRIS_DIRECT`: iris direct. -/
def execIrisDirect (h : Header) (value : Half) (s : State) : Result :=
  pollOnce (wireBytes (.irisDirect h value)) s

/-- R240, row 67, `IRIS_INQ`: iris inquiry. -/
def execIrisInq (h : Header) (s : State) : Result :=
  pollOnce (wireBytes (.irisInq h)) s

/-- R241, row 68, `COLOR_HUE_DIRECT`: color hue direct. -/
def execColorHueDirect (h : Header) (value : Half) (s : State) : Result :=
  pollOnce (wireBytes (.colorHueDirect h value)) s

/-- R242, row 69, `COLOR_HUE_INQ`: color hue inquiry. -/
def execColorHueInq (h : Header) (s : State) : Result :=
  pollOnce (wireBytes (.colorHueInq h)) s

/-- R243, row 70, `LR_REVERSE`: left-right reverse. -/
def execLrReverse (h : Header) (value : Byte) (s : State) : Result :=
  pollOnce (wireBytes (.lrReverse h value)) s

/-- R244, row 71, `LR_REVERSE_INQ`: left-right reverse inquiry. -/
def execLrReverseInq (h : Header) (s : State) : Result :=
  pollOnce (wireBytes (.lrReverseInq h)) s

/-- R245, row 72, `PICTURE_EFFECT`: picture effect. -/
def execPictureEffect (h : Header) (value : Byte) (s : State) : Result :=
  pollOnce (wireBytes (.pictureEffect h value)) s

/-- R246, row 73, `PICTURE_EFFECT_INQ`: picture effect inquiry. -/
def execPictureEffectInq (h : Header) (s : State) : Result :=
  pollOnce (wireBytes (.pictureEffectInq h)) s

/-- R247, row 74, `PICTURE_FLIP`: picture flip. -/
def execPictureFlip (h : Header) (value : Byte) (s : State) : Result :=
  pollOnce (wireBytes (.pictureFlip h value)) s

/-- R248, row 75, `PICTURE_FLIP_INQ`: picture flip inquiry. -/
def execPictureFlipInq (h : Header) (s : State) : Result :=
  pollOnce (wireBytes (.pictureFlipInq h)) s

/-- R249, row 76, `BRIGHTNESS_DIRECT`: brightness (image) direct. -/
def execBrightnessDirect (h : Header) (value : Half) (s : State) : Result :=
  pollOnce (wireBytes (.brightnessDirect h value)) s

/-- R250, row 77, `BRIGHTNESS_INQ`: brightness (image) inquiry. -/
def execBrightnessInq (h : Header) (s : State) : Result :=
  pollOnce (wireBytes (.brightnessInq h)) s

/-- R251, row 78, `CONTRAST_DIRECT`: contrast direct. -/
def execContrastDirect (h : Header) (value : Half) (s : State) : Result :=
  pollOnce (wireBytes (.contrastDirect h value)) s

/-- R252, row 79, `CONTRAST_INQ`: contrast inquiry. -/
def execContrastInq (h : Header) (s : State) : Result :=
  pollOnce (wireBytes (.contrastInq h)) s

/-- R253, row 80, `AWB_SENS`: auto-white-balance sensitivity. -/
def execAwbSens (h : Header) (value : Nibble) (s : State) : Result :=
  pollOnce (wireBytes (.awbSens h value)) s

/-- R254, row 81, `AWB_SENS_INQ`: auto-white-balance sensitivity inquiry. -/
def execAwbSensInq (h : Header) (s : State) : Result :=
  pollOnce (wireBytes (.awbSensInq h)) s

end Sys2Proof.Machine
end

