-- ==== Sys2Proof/Machine/PtzLens.lean ====
section
/-! DEFINITION. The pan-tilt, lens, preset, system and menu messages, rows 10 to 36 (R183 to R209). A received message runs as one pass of POLL's loop over
its frame (R277): DECODE under the configured registry, the event, and the advance of `rx` and `cur`. The
VCU gives a message no further meaning (R7, R160). Under REF_REGISTRY the event is the one of the row's
own rule, named at each definition. -/

namespace Sys2Proof.Machine

/-- R183, row 10, `PT_POS_INQ`: pan-tilt position inquiry. -/
def execPtPosInq (h : Header) (s : State) : Result :=
  pollOnce (wireBytes (.ptPosInq h)) s

/-- R184, row 11, `ZOOM_STOP`: zoom stop. -/
def execZoomStop (h : Header) (s : State) : Result :=
  pollOnce (wireBytes (.zoomStop h)) s

/-- R185, row 12, `ZOOM_TELE`: zoom tele, fixed (standard) speed. -/
def execZoomTele (h : Header) (s : State) : Result :=
  pollOnce (wireBytes (.zoomTele h)) s

/-- R186, row 13, `ZOOM_WIDE`: zoom wide, fixed (standard) speed. -/
def execZoomWide (h : Header) (s : State) : Result :=
  pollOnce (wireBytes (.zoomWide h)) s

/-- R187, row 14, `ZOOM_TELE_VAR`: zoom tele, variable speed p. -/
def execZoomTeleVar (h : Header) (value : Nibble) (s : State) : Result :=
  pollOnce (wireBytes (.zoomTeleVar h value)) s

/-- R188, row 15, `ZOOM_WIDE_VAR`: zoom wide, variable speed p. -/
def execZoomWideVar (h : Header) (value : Nibble) (s : State) : Result :=
  pollOnce (wireBytes (.zoomWideVar h value)) s

/-- R189, row 16, `FOCUS_STOP`: focus stop. -/
def execFocusStop (h : Header) (s : State) : Result :=
  pollOnce (wireBytes (.focusStop h)) s

/-- R190, row 17, `FOCUS_FAR`: focus far, fixed (standard) speed. -/
def execFocusFar (h : Header) (s : State) : Result :=
  pollOnce (wireBytes (.focusFar h)) s

/-- R191, row 18, `FOCUS_NEAR`: focus near, fixed (standard) speed. -/
def execFocusNear (h : Header) (s : State) : Result :=
  pollOnce (wireBytes (.focusNear h)) s

/-- R192, row 19, `FOCUS_FAR_VAR`: focus far, variable speed p. -/
def execFocusFarVar (h : Header) (value : Nibble) (s : State) : Result :=
  pollOnce (wireBytes (.focusFarVar h value)) s

/-- R193, row 20, `FOCUS_NEAR_VAR`: focus near, variable speed p. -/
def execFocusNearVar (h : Header) (value : Nibble) (s : State) : Result :=
  pollOnce (wireBytes (.focusNearVar h value)) s

/-- R194, row 21, `PT_DRIVE`: pan-tilt drive (speeds vv ww, directions xx yy). -/
def execPtDrive (h : Header) (panSpeed tiltSpeed panDir tiltDir : Byte) (s : State) : Result :=
  pollOnce (wireBytes (.ptDrive h panSpeed tiltSpeed panDir tiltDir)) s

/-- R195, row 22, `MEMORY_RECALL`: memory (preset) recall, mode byte 02. -/
def execMemoryRecall (h : Header) (index : Byte) (s : State) : Result :=
  pollOnce (wireBytes (.memoryRecall h index)) s

/-- R196, row 23, `MEMORY_SET`: memory (preset) set, mode byte 01. -/
def execMemorySet (h : Header) (index : Byte) (s : State) : Result :=
  pollOnce (wireBytes (.memorySet h index)) s

/-- R197, row 24, `CLEAR`: interface clear. The VCU takes no action on it (R7). -/
def execClear (h : Header) (s : State) : Result :=
  pollOnce (wireBytes (.clear h)) s

/-- R198, row 25, `MOTION_SYNC`: motion-sync mode (vendor extension). -/
def execMotionSync (h : Header) (value : Byte) (s : State) : Result :=
  pollOnce (wireBytes (.motionSync h value)) s

/-- R199, row 26, `PRESET_SPEED`: preset-recall speed (vendor extension). -/
def execPresetSpeed (h : Header) (value : Byte) (s : State) : Result :=
  pollOnce (wireBytes (.presetSpeed h value)) s

/-- R200, row 27, `PT_ABS`: absolute pan-tilt position. -/
def execPtAbs (h : Header) (panSpeed tiltSpeed : Byte) (panPos tiltPos : Half) (s : State) : Result :=
  pollOnce (wireBytes (.ptAbs h panSpeed tiltSpeed panPos tiltPos)) s

/-- R201, row 28, `PT_REL`: relative pan-tilt position. -/
def execPtRel (h : Header) (panSpeed tiltSpeed : Byte) (panPos tiltPos : Half) (s : State) : Result :=
  pollOnce (wireBytes (.ptRel h panSpeed tiltSpeed panPos tiltPos)) s

/-- R202, row 29, `PT_HOME`: pan-tilt home. The VCU takes no action on it (R7). -/
def execPtHome (h : Header) (s : State) : Result :=
  pollOnce (wireBytes (.ptHome h)) s

/-- R203, row 30, `PT_RESET`: pan-tilt reset. The VCU takes no action on it (R7). -/
def execPtReset (h : Header) (s : State) : Result :=
  pollOnce (wireBytes (.ptReset h)) s

/-- R204, row 31, `CANCEL`: cancel the command in socket z. The VCU takes no action on it (R7). -/
def execCancel (h : Header) (socket : Nibble) (s : State) : Result :=
  pollOnce (wireBytes (.cancel h socket)) s

/-- R205, row 32, `MENU_ENTER`: menu enter. -/
def execMenuEnter (h : Header) (s : State) : Result :=
  pollOnce (wireBytes (.menuEnter h)) s

/-- R206, row 33, `MENU_ENTER`: menu enter, vendor-specific variant (second row of kind MENU_ENTER). Reached
by DECODE only; ENCODE of the kind uses row 32 (R127). -/
def execMenuEnterVariant (h : Header) (s : State) : Result :=
  pollOnce (wireBytes (.menuEnterVariant h)) s

/-- R207, row 34, `MENU_RETURN`: menu return. -/
def execMenuReturn (h : Header) (s : State) : Result :=
  pollOnce (wireBytes (.menuReturn h)) s

/-- R208, row 35, `MENU_MODE`: menu mode (on/off byte). Value 5 is row 32, MENU_ENTER, and value 4 row 34,
MENU_RETURN (R90). -/
def execMenuMode (h : Header) (value : Byte) (s : State) : Result :=
  pollOnce (wireBytes (.menuMode h value)) s

/-- R209, row 36, `MENU_MODE_INQ`: menu mode inquiry. -/
def execMenuModeInq (h : Header) (s : State) : Result :=
  pollOnce (wireBytes (.menuModeInq h)) s

end Sys2Proof.Machine
end

