-- ==== Sys2Proof/Machine/Replies.lean ====
section
/-! DEFINITION. The reply messages, registry rows 0 to 9 (R173 to R182). A received message runs as one pass of POLL's loop over
its frame (R277): DECODE under the configured registry, the event, and the advance of `rx` and `cur`. The
VCU gives a message no further meaning (R7, R160). Under REF_REGISTRY the event is the one of the row's
own rule, named at each definition. -/

namespace Sys2Proof.Machine

/-- R173, row 0, `RESP_BYTE`: generic one-byte-value inquiry response. -/
def execRespByte (h : Header) (value : Byte) (s : State) : Result :=
  pollOnce (wireBytes (.respByte h value)) s

/-- R174, row 1, `RESP_P`: generic low-nibble inquiry response. Row 0 matches every such payload first, so
the event names RESP_BYTE (R90). -/
def execRespP (h : Header) (value : Nibble) (s : State) : Result :=
  pollOnce (wireBytes (.respP h value)) s

/-- R175, row 2, `RESP_PQ`: generic two-nibble packed inquiry response. -/
def execRespPQ (h : Header) (value : Byte) (s : State) : Result :=
  pollOnce (wireBytes (.respPQ h value)) s

/-- R176, row 3, `RESP_PQRS`: generic four-nibble packed inquiry response. -/
def execRespPQRS (h : Header) (value : Half) (s : State) : Result :=
  pollOnce (wireBytes (.respPQRS h value)) s

/-- R177, row 4, `PT_POS_RESP`: pan-tilt position inquiry response. -/
def execPtPosResp (h : Header) (panPos tiltPos : Half) (s : State) : Result :=
  pollOnce (wireBytes (.ptPosResp h panPos tiltPos)) s

/-- R178, row 5, `ACK`: acknowledge. -/
def execAck (h : Header) (socket : Nibble) (s : State) : Result :=
  pollOnce (wireBytes (.ack h socket)) s

/-- R179, row 6, `COMPLETION`: completion. -/
def execCompletion (h : Header) (socket : Nibble) (s : State) : Result :=
  pollOnce (wireBytes (.completion h socket)) s

/-- R180, row 7, `ERROR`: error reply. -/
def execError (h : Header) (socket : Nibble) (code : Byte) (s : State) : Result :=
  pollOnce (wireBytes (.error h socket code)) s

/-- R181, row 8, `CAMNUM_QUERY`: camera-number query (address set). -/
def execCamnumQuery (h : Header) (s : State) : Result :=
  pollOnce (wireBytes (.camnumQuery h)) s

/-- R182, row 9, `CAMNUM_REPLY`: camera-number reply. Index 1 is row 8, CAMNUM_QUERY (R90). -/
def execCamnumReply (h : Header) (index : Nibble) (s : State) : Result :=
  pollOnce (wireBytes (.camnumReply h index)) s

end Sys2Proof.Machine
end

