-- ==== Sys2Proof/Machine/Requests.lean ====
section
/-! DEFINITION. The seven request operations (R101): each runs its function of Machine/Ops.lean and answers
its response. A request is one step, saves nothing and writes nothing but the buffer of its own caller (R4, R25,
R53, R68). -/

namespace Sys2Proof.Machine

/-- Op 0, R105: no outcome of EXTRACT is an error. -/
def execExtract (buf : List Byte) (s : State) : Result :=
  whenConfigured s (answerWith .extract (vcuExtract s.cfg buf) s)

/-- R36, R53, R256: the end of a request that was given the OUT buffer `out`. An error leaves it as it is. -/
def finishEncode (answer : EncodeResponse → Response) (out : Memory)
    (r : Except Stop (Memory × EncodeResponse)) (s : State) : Result :=
  match r with
  | .ok (m, resp) => .next ((s.handBack m).answer (answer resp))
  | .error (.raised e) => raiseError (fun e => answer (.failed e)) e (s.handBack out)
  | .error (.fault f) => .fault f

/-- Op 1, R110: a payload longer than CAP is refused at the port (R271). -/
def execSerialize (sender receiver : Byte) (payload : List Byte) (out : OutBuffer) (s : State) : Result :=
  whenConfigured s
    (if payload.length > s.cfg.cap then .refused .payloadOverCapacity
     else finishEncode .serialize (callerOut out)
       (vcuSerialize sender receiver payload out.capacity (callerOut out)) s)

/-- Op 2, R122: no outcome of CLASSIFY is an error. -/
def execClassify (payload : List Byte) (s : State) : Result :=
  whenConfigured s (answerWith .classify (vcuClassify s.cfg payload) s)

/-- Op 3, R126. -/
def execTemplate (kind : Kind) (s : State) : Result :=
  whenConfigured s
    (match vcuTemplate s.cfg kind with
     | .ok (e, row) => .next (s.answer (.template (.hit e row)))
     | .error e => raiseError (fun e => .template (.failed e)) e s)

/-- Op 4, R167: the work buffer is the caller's; the response carries it back. -/
def execCodec (dir : Dir) (c : CodecId) (work : List Byte) (prm : Params) (s : State) : Result :=
  whenConfigured s
    (match vcuCodec dir c work prm with
     | .ok r => .next (s.answer (.codec r))
     | .error (.raised e) => raiseError (fun e => .codec (.failed e)) e s
     | .error (.fault f) => .fault f)

/-- Op 5, R161: no outcome of DECODE is an error. -/
def execDecode (buf : List Byte) (s : State) : Result :=
  whenConfigured s (answerWith .decode (vcuDecode s.cfg buf) s)

/-- Op 6, R164. -/
def execEncode (kind : Kind) (prm : Params) (sender receiver : Byte) (out : OutBuffer)
    (s : State) : Result :=
  whenConfigured s
    (finishEncode .encode (callerOut out)
      (vcuEncode s.cfg kind prm sender receiver out.capacity (callerOut out)) s)

end Sys2Proof.Machine
end

