-- ==== Sys2Proof/Machine/Dispatch.lean ====
section
/-! DEFINITION. The meaning of every instruction: one arm per row of the opcode table. -/

namespace Sys2Proof.Machine

def exec (i : Instr) (s : State) : Host.Outcome State Fault Refusal :=
  match i with
  | .respByte h value => Sys2Proof.Machine.execRespByte h value s
  | .respP h value => Sys2Proof.Machine.execRespP h value s
  | .respPQ h value => Sys2Proof.Machine.execRespPQ h value s
  | .respPQRS h value => Sys2Proof.Machine.execRespPQRS h value s
  | .ptPosResp h panPos tiltPos => Sys2Proof.Machine.execPtPosResp h panPos tiltPos s
  | .ack h socket => Sys2Proof.Machine.execAck h socket s
  | .completion h socket => Sys2Proof.Machine.execCompletion h socket s
  | .error h socket code => Sys2Proof.Machine.execError h socket code s
  | .camnumQuery h => Sys2Proof.Machine.execCamnumQuery h s
  | .camnumReply h index => Sys2Proof.Machine.execCamnumReply h index s
  | .ptPosInq h => Sys2Proof.Machine.execPtPosInq h s
  | .zoomStop h => Sys2Proof.Machine.execZoomStop h s
  | .zoomTele h => Sys2Proof.Machine.execZoomTele h s
  | .zoomWide h => Sys2Proof.Machine.execZoomWide h s
  | .zoomTeleVar h value => Sys2Proof.Machine.execZoomTeleVar h value s
  | .zoomWideVar h value => Sys2Proof.Machine.execZoomWideVar h value s
  | .focusStop h => Sys2Proof.Machine.execFocusStop h s
  | .focusFar h => Sys2Proof.Machine.execFocusFar h s
  | .focusNear h => Sys2Proof.Machine.execFocusNear h s
  | .focusFarVar h value => Sys2Proof.Machine.execFocusFarVar h value s
  | .focusNearVar h value => Sys2Proof.Machine.execFocusNearVar h value s
  | .ptDrive h panSpeed tiltSpeed panDir tiltDir => Sys2Proof.Machine.execPtDrive h panSpeed tiltSpeed panDir tiltDir s
  | .memoryRecall h index => Sys2Proof.Machine.execMemoryRecall h index s
  | .memorySet h index => Sys2Proof.Machine.execMemorySet h index s
  | .clear h => Sys2Proof.Machine.execClear h s
  | .motionSync h value => Sys2Proof.Machine.execMotionSync h value s
  | .presetSpeed h value => Sys2Proof.Machine.execPresetSpeed h value s
  | .ptAbs h panSpeed tiltSpeed panPos tiltPos => Sys2Proof.Machine.execPtAbs h panSpeed tiltSpeed panPos tiltPos s
  | .ptRel h panSpeed tiltSpeed panPos tiltPos => Sys2Proof.Machine.execPtRel h panSpeed tiltSpeed panPos tiltPos s
  | .ptHome h => Sys2Proof.Machine.execPtHome h s
  | .ptReset h => Sys2Proof.Machine.execPtReset h s
  | .cancel h socket => Sys2Proof.Machine.execCancel h socket s
  | .menuEnter h => Sys2Proof.Machine.execMenuEnter h s
  | .menuEnterVariant h => Sys2Proof.Machine.execMenuEnterVariant h s
  | .menuReturn h => Sys2Proof.Machine.execMenuReturn h s
  | .menuMode h value => Sys2Proof.Machine.execMenuMode h value s
  | .menuModeInq h => Sys2Proof.Machine.execMenuModeInq h s
  | .brightPosDirect h value => Sys2Proof.Machine.execBrightPosDirect h value s
  | .brightPosInq h => Sys2Proof.Machine.execBrightPosInq h s
  | .colorTempDirect h value => Sys2Proof.Machine.execColorTempDirect h value s
  | .colorTempInq h => Sys2Proof.Machine.execColorTempInq h s
  | .flicker h value => Sys2Proof.Machine.execFlicker h value s
  | .flickerInq h => Sys2Proof.Machine.execFlickerInq h s
  | .gainLimit h value => Sys2Proof.Machine.execGainLimit h value s
  | .gainLimitInq h => Sys2Proof.Machine.execGainLimitInq h s
  | .wbMode h value => Sys2Proof.Machine.execWbMode h value s
  | .wbModeInq h => Sys2Proof.Machine.execWbModeInq h s
  | .focusAuto h => Sys2Proof.Machine.execFocusAuto h s
  | .focusManual h => Sys2Proof.Machine.execFocusManual h s
  | .focusModeInq h => Sys2Proof.Machine.execFocusModeInq h s
  | .aeMode h value => Sys2Proof.Machine.execAeMode h value s
  | .aeModeInq h => Sys2Proof.Machine.execAeModeInq h s
  | .apertureDirect h value => Sys2Proof.Machine.execApertureDirect h value s
  | .apertureInq h => Sys2Proof.Machine.execApertureInq h s
  | .rgainDirect h value => Sys2Proof.Machine.execRgainDirect h value s
  | .rgainInq h => Sys2Proof.Machine.execRgainInq h s
  | .bgainDirect h value => Sys2Proof.Machine.execBgainDirect h value s
  | .bgainInq h => Sys2Proof.Machine.execBgainInq h s
  | .zoomDirect h value => Sys2Proof.Machine.execZoomDirect h value s
  | .zoomPosInq h => Sys2Proof.Machine.execZoomPosInq h s
  | .focusDirect h value => Sys2Proof.Machine.execFocusDirect h value s
  | .focusPosInq h => Sys2Proof.Machine.execFocusPosInq h s
  | .colorGainDirect h value => Sys2Proof.Machine.execColorGainDirect h value s
  | .colorGainInq h => Sys2Proof.Machine.execColorGainInq h s
  | .shutterDirect h value => Sys2Proof.Machine.execShutterDirect h value s
  | .shutterInq h => Sys2Proof.Machine.execShutterInq h s
  | .irisDirect h value => Sys2Proof.Machine.execIrisDirect h value s
  | .irisInq h => Sys2Proof.Machine.execIrisInq h s
  | .colorHueDirect h value => Sys2Proof.Machine.execColorHueDirect h value s
  | .colorHueInq h => Sys2Proof.Machine.execColorHueInq h s
  | .lrReverse h value => Sys2Proof.Machine.execLrReverse h value s
  | .lrReverseInq h => Sys2Proof.Machine.execLrReverseInq h s
  | .pictureEffect h value => Sys2Proof.Machine.execPictureEffect h value s
  | .pictureEffectInq h => Sys2Proof.Machine.execPictureEffectInq h s
  | .pictureFlip h value => Sys2Proof.Machine.execPictureFlip h value s
  | .pictureFlipInq h => Sys2Proof.Machine.execPictureFlipInq h s
  | .brightnessDirect h value => Sys2Proof.Machine.execBrightnessDirect h value s
  | .brightnessInq h => Sys2Proof.Machine.execBrightnessInq h s
  | .contrastDirect h value => Sys2Proof.Machine.execContrastDirect h value s
  | .contrastInq h => Sys2Proof.Machine.execContrastInq h s
  | .awbSens h value => Sys2Proof.Machine.execAwbSens h value s
  | .awbSensInq h => Sys2Proof.Machine.execAwbSensInq h s
  | .extract buf => Sys2Proof.Machine.execExtract buf s
  | .serialize sender receiver payload out => Sys2Proof.Machine.execSerialize sender receiver payload out s
  | .classify payload => Sys2Proof.Machine.execClassify payload s
  | .template kind => Sys2Proof.Machine.execTemplate kind s
  | .codec dir c work prm => Sys2Proof.Machine.execCodec dir c work prm s
  | .decode buf => Sys2Proof.Machine.execDecode buf s
  | .encode kind prm sender receiver out => Sys2Proof.Machine.execEncode kind prm sender receiver out s

end Sys2Proof.Machine
end

