-- ==== Sys2Proof/Machine/Fetch.lean ====
section
/-! DEFINITION. Where a step finds what to run: while a POLL is under way, the frame at the front of `rx`
(R277); otherwise the next input the outside world presented. -/

namespace Sys2Proof.Machine

/-- What a step found. -/
inductive Fetched where
  /-- Nothing is presented. -/
  | nothing
  /-- A POLL is under way; the bytes of `rx` read as an instruction of the table, or not. -/
  | wire (found : Except WireReject Instr)
  /-- A port request, and the inputs after it. -/
  | request (found : Except PortReject Instr) (rest : List Input)
  /-- RECV, and the inputs after it. -/
  | recv (bytes : List Byte) (rest : List Input)
  /-- POLL, and the inputs after it. -/
  | poll (rest : List Input)
  /-- SEND, and the inputs after it. -/
  | send (kind : Kind) (params : Params) (sender receiver : Byte) (rest : List Input)
  /-- OPEN, and the inputs after it. -/
  | openConn (rest : List Input)
  /-- CLOSE, and the inputs after it. -/
  | closeConn (rest : List Input)
  deriving DecidableEq, Repr

/-- Takes the next input. -/
def fetchInput : List Input → Fetched
  | [] => .nothing
  | .request r :: rest => .request (decodePort r) rest
  | .recv bytes :: rest => .recv bytes rest
  | .poll :: rest => .poll rest
  | .send k p snd rcv :: rest => .send k p snd rcv rest
  | .openConn :: rest => .openConn rest
  | .closeConn :: rest => .closeConn rest

/-- What the next step runs. -/
def fetch (s : State) : Fetched :=
  match s.task with
  | .idle => fetchInput s.inputs
  | .polling | .receiving => .wire (decodeWire s.rx)

/-- Places an instruction where the next step fetches: a frame at the front of `rx` of an open connection
with a POLL under way, or a request at the head of the inputs with no POLL under way. -/
def placeCode (s : State) (c : Code) : State :=
  match c with
  | .wire bytes => { s with rx := bytes ++ s.rx, conn := .opened, task := .polling }
  | .port r => { s with inputs := .request r :: s.inputs, task := .idle }

end Sys2Proof.Machine
end

