-- ==== Sys2Proof/Machine/Step.lean ====
section
/-! DEFINITION. One step: the frame at the front of `rx` while a POLL is under way, or the next input
(R4, R276 to R280). A request the port refuses is answered by nothing (R271). -/

namespace Sys2Proof.Machine

/-- One step of the machine. -/
def step (s : State) : Host.Outcome State Fault Refusal :=
  match fetch s with
  | .nothing => runIdle s
  | .wire (.ok i) => exec i s
  | .wire (.error _) => pollOnce s.rx s
  | .request (.ok i) rest => exec i (s.withInputs rest)
  | .request (.error why) _ => .refused (.port why)
  | .recv bytes rest => whenConfigured s (runRecv bytes (s.withInputs rest))
  | .poll rest => whenConfigured s (runPoll (s.withInputs rest))
  | .send kind prm snd rcv rest => whenConfigured s (runSend kind prm snd rcv (s.withInputs rest))
  | .openConn rest => whenConfigured s (runOpen (s.withInputs rest))
  | .closeConn rest => whenConfigured s (runClose (s.withInputs rest))

/-- The state with an instruction of the opcode table placed where the next step fetches it. -/
def State.withFetchWord (s : State) (nbits w : Nat) : State := placeCode s (tableCode nbits w)

end Sys2Proof.Machine
end

