-- ==== Sys2Proof/Safety.lean ====
section
/-! DEFINITION. The terms the claims use: the configurations and states a claim is about, the outcome of a step
written out as a state, the registry, codec and port rules in the words of spec/, the invariant a safe run keeps,
and the end state of a run. -/

namespace Sys2Proof.Machine

/-- The state is configured with a well-formed configuration (R119) whose registry is REF_REGISTRY (R129), and
its connection is open. MAX_FRAME and RX_MAX are any values such a configuration admits. -/
def State.refReady (s : State) : Prop :=
  s.cfg.wf = true ∧ s.cfg.registry = refRegistry ∧ s.conn = .opened

/-- The state with one more response answered at a request port, and everything else as it was. -/
def answered (s : State) (r : Response) : State := { s with responses := s.responses ++ [r] }

/-- R277: the state after a message of `n` bytes was delivered: its event stands last, the `n` bytes are dropped
from `rx`, the cursor is `n` further, and everything else is as it was. -/
def delivered (s : State) (n : Nat) (m : Message) : State :=
  { s with
    rx := s.rx.drop n
    cur := s.cur + n
    events := s.events ++ [.msg s.cur m.sender m.receiver m.kind m.params] }

/-- An instruction completes by delivering a message of `n` bytes, in every ready state. -/
def Delivers (i : Instr) (n : Nat) (h : Header) (k : Kind) (p : Params) : Prop :=
  ∀ s : State, s.refReady → exec i s = .next (delivered s n ⟨k, p, h.sender, h.receiver⟩)

/-- R278: the stream offset an event carries. -/
def Event.offset? : Event → Option Nat
  | .msg o _ _ _ _ => some o
  | .unknown o _ _ _ => some o
  | .corrupt o _ => some o
  | .overflow o => some o
  | .sent _ => none
  | .encodeError _ => none

/-- What every step keeps. -/
structure State.Inv (s : State) : Prop where
  /-- R119: the block runs with a well-formed configuration. -/
  configured : s.cfg.wf = true
  /-- Every OUT buffer is in its canonical form. -/
  outsCanonical : ∀ m ∈ s.outs, Memory.wf m = true
  /-- R277, R280: a closed connection holds no bytes. -/
  closedEmpty : s.conn = .closed → s.rx = []
  /-- R277: between harness steps no whole frame is left in `rx`. -/
  idleUnframed : s.task = .idle → terminator ∉ s.rx
  /-- R276: outside a RECV, `rx` keeps within RX_MAX. -/
  bounded : s.task ≠ .receiving → ∀ n, s.cfg.rxMax = some n → s.rx.length ≤ n
  /-- R278: an event's offset is one the cursor has reached. -/
  offsetsReached : ∀ e ∈ s.events, ∀ o, e.offset? = some o → o ≤ s.cur

/-- The end state of a harness program (R295). -/
structure EndState where
  rx : List Byte
  cur : Nat
  conn : Conn
  tx : List Byte
  events : List Event
  deriving DecidableEq, Repr

/-- R295: the harness part of a state. -/
def State.endState (s : State) : EndState := ⟨s.rx, s.cur, s.conn, s.tx, s.events⟩

/-- A run from `s` takes every input and comes to rest with the given end state. -/
def RunsTo (s : State) (e : EndState) : Prop :=
  ∃ (k : Nat) (t : State), Host.Core.run ⟨State, Fault, Refusal, step, State.reset⟩ k s = .next t ∧
    t.task = .idle ∧ t.inputs = [] ∧ t.endState = e

/-! ## Outcomes of a step, written out -/

/-- The state after a request that was given an OUT buffer: its own buffer as the request left it and one more
response, everything else, the OUT buffers of all earlier requests among it, as it was. -/
def handedBack (s : State) (m : Memory) (r : Response) : State :=
  { s with outs := s.outs ++ [m], responses := s.responses ++ [r] }

/-- R51: every byte of a byte space from an index upward reads as the caller handed it in. -/
def KeepsOutFrom (n : Nat) (out : OutBuffer) (m : Memory) : Prop :=
  ∀ j, n ≤ j → m.read j = (out.held.take out.capacity)[j]?

/-- R36, R256: a request given the OUT buffer `out` answers an error: its buffer holds what it held, and nothing
else changes but the response. -/
def FailsKeepingOut (i : Instr) (s : State) (out : OutBuffer) (r : Response) : Prop :=
  ∃ m : Memory, exec i s = .next (handedBack s m r) ∧ KeepsOutFrom 0 out m

/-- R37, R255: the error an encode-side status reports. -/
def EStatus.raised? : EStatus → Option EncError
  | .ok => none
  | .error e => some e

/-- R256: the error a response reports. -/
def Response.raised? : Response → Option EncError
  | .serialize r => r.status.raised?
  | .template r => r.status.raised?
  | .codec r => r.status.raised?
  | .encode r => r.status.raised?
  | .extract _ => none
  | .classify _ => none
  | .decode _ => none

/-- R277: the state after a frame of `n` bytes that matched no row. -/
def skipped (s : State) (n : Nat) (snd : BitVec 3) (rcv : BitVec 4) (payload : List Byte) : State :=
  { s with
    rx := s.rx.drop n
    cur := s.cur + n
    events := s.events ++ [.unknown s.cur snd rcv payload] }

/-- R277: the state after the connection was closed with an event. -/
def closedWith (s : State) (e : Event) : State :=
  { s with rx := [], conn := .closed, events := s.events ++ [e], task := .idle }

/-- R119, R129: a well-formed configuration with REF_REGISTRY. MAX_FRAME and RX_MAX are any values such a
configuration admits. -/
def State.refConfigured (s : State) : Prop := s.cfg.wf = true ∧ s.cfg.registry = refRegistry

/-! ## The registry, in the words of its rules -/

/-- R121: masked equality, said byte by byte. -/
def Matches (p : List Byte) (e : Entry) : Prop :=
  p.length = e.length ∧ ∀ k < p.length, p.getD k 0 &&& e.mask.getD k 0 = e.signature.getD k 0

/-- `e` is the first row of the configuration that a payload matches. -/
def FirstMatch (c : Config) (p : List Byte) (pre : List Entry) (e : Entry) : Prop :=
  ∃ post, c.rows = pre ++ e :: post ∧ (∀ d ∈ pre, ¬ Matches p d) ∧ Matches p e

/-- `e` is the first row of the configuration that holds a kind. -/
def FirstOfKind (c : Config) (k : Kind) (pre : List Entry) (e : Entry) : Prop :=
  ∃ post, c.rows = pre ++ e :: post ∧ (∀ d ∈ pre, d.kind ≠ k) ∧ e.kind = k

/-! ## The codecs, in the words of their rules -/

/-- R133: the value of digits, the most significant first; the high nibble of each byte is not read. -/
def digitValue (ds : List Byte) : Nat := ds.foldl (fun n d => 16 * n + d.toNat % 16) 0

/-- R134: digit `k` of a value as a byte, digit 0 the least significant. -/
def digit (v k : Nat) : Byte := BitVec.ofNat 8 (v / 16 ^ k % 16)

/-- R82: bits 3:0 of a byte as a value of their own. -/
def lowBits (b : Byte) : BitVec 4 := BitVec.ofNat 4 (b.toNat % 16)

/-- The CODEC request, decode direction, answers `prm`, whatever its parameter operand. -/
def CodecDecodes (c : CodecId) (work : List Byte) (prm : Params) : Prop :=
  ∀ (s : State) (unread : Params), s.cfg.wf = true →
    exec (.codec .decode c work unread) s = .next (answered s (.codec ⟨.ok, none, some prm, none⟩))

/-- The CODEC request, encode direction, leaves the work buffer as `work'`. -/
def CodecEncodes (c : CodecId) (work : List Byte) (prm : Params) (work' : List Byte) : Prop :=
  ∀ s : State, s.cfg.wf = true →
    exec (.codec .encode c work prm) s = .next (answered s (.codec ⟨.ok, none, none, some work'⟩))

/-- The CODEC request raises an error: nothing but the response changes. -/
def CodecFails (dir : Dir) (c : CodecId) (work : List Byte) (prm : Params) (e : EncError) : Prop :=
  ∀ s : State, s.cfg.wf = true →
    exec (.codec dir c work prm) s = .next (answered s (.codec ⟨.error e, some 0, none, none⟩))

/-- R154: every parameter value of another variant than `shape` raises the shape error. -/
def RejectsOtherShapes (c : CodecId) (work : List Byte) (shape : Shape) : Prop :=
  ∀ prm : Params, prm.shape ≠ shape → CodecFails .encode c work prm .paramShape

/-- R154: a one-byte value above 15. -/
def AboveDigit : Params → Prop
  | .oneByte v => 15 < v.toNat
  | .none | .twoByte _ | .ptPosition _ _ _ _ | .ptDrive _ _ _ _ | .socket _ | .errorReply _ _
  | .cameraNumber _ | .memory _ _ => False

/-- R154: `CODEC_CHECK` passes. -/
def CheckPasses (c : CodecId) (prm : Params) : Prop :=
  c = .none ∨ (prm.shape = codecShape c ∧ ¬ ((c = .pCmd ∨ c = .pRsp) ∧ AboveDigit prm))

/-- R158: a parameter value after it went through the codec of a row: PT_RESP speeds are 0, the MEMORY mode is
the signature's, and a codec-less row has none. -/
def normalised (e : Entry) (prm : Params) : Params :=
  match e.codec, prm with
  | .none, _ => .none
  | .ptResp, .ptPosition _ _ panPos tiltPos => .ptPosition 0 0 panPos tiltPos
  | .memory, .memory index _ => .memory index (e.signature.getD 3 0)
  | _, prm => prm

/-! ## The port -/

/-- R271: a MessageParameters field wider than its declared width (R33). -/
def WideField (r : PortRequest) : Prop :=
  match r.tag with
  | 1 => 2 ^ 8 ≤ r.prm0
  | 2 => 2 ^ 16 ≤ r.prm0
  | 3 => 2 ^ 8 ≤ r.prm0 ∨ 2 ^ 8 ≤ r.prm1 ∨ 2 ^ 16 ≤ r.prm2 ∨ 2 ^ 16 ≤ r.prm3
  | 4 => 2 ^ 8 ≤ r.prm0 ∨ 2 ^ 8 ≤ r.prm1 ∨ 2 ^ 8 ≤ r.prm2 ∨ 2 ^ 8 ≤ r.prm3
  | 5 => 2 ^ 4 ≤ r.prm0
  | 6 => 2 ^ 4 ≤ r.prm0 ∨ 2 ^ 8 ≤ r.prm1
  | 7 => 2 ^ 4 ≤ r.prm0
  | 8 => 2 ^ 8 ≤ r.prm0 ∨ 2 ^ 8 ≤ r.prm1
  | _ => False

/-- R102, R271: what the port refuses in a request's own fields, each checked where R101 names the field. -/
def BadRequest (r : PortRequest) : Prop :=
  r.op = 7 ∨ ((r.op = 3 ∨ r.op = 6) ∧ 81 < r.kind) ∨ (r.op = 4 ∧ (1 < r.dir ∨ 15 < r.codec)) ∨
  ((r.op = 4 ∨ r.op = 6) ∧ (8 < r.tag ∨ WideField r))

/-! ## A stream of messages -/

/-- R278: the events of a stream of messages whose first byte has the given offset. -/
def eventsFrom (offset : Nat) : List Instr → List Event
  | [] => []
  | i :: rest =>
    (match typedMessage (shadowedBy i) with
     | some m => [.msg offset m.sender m.receiver m.kind m.params]
     | none => []) ++ eventsFrom (offset + (wireBytes i).length) rest

end Sys2Proof.Machine
end

