-- ==== Sys2Proof/Certificates/Slice0/Obligations.lean ====
section
/-! DEFINITION. The statements for the provers. Each docstring says what is stated; OBLIGATIONS.json names the
rules or sections of spec/ it rests on. -/

open Sys2Proof Sys2Proof.Machine

/-- spec/10_state.md section 7, reset values; spec/70_reset_and_hazards.md section 1, OPEN. In the reset state rx
and tx are empty, the cursor is 0 and the connection is OPEN: the values the spec gives the harness at
connection open. The spec marks them as its own decision (D24). -/
def Obligations.ResetLeavesAnOpenEmptyHarness : Prop :=
  State.reset.rx = [] ∧ State.reset.cur = 0 ∧ State.reset.conn = .opened ∧ State.reset.tx = []

/-- spec/10_state.md section 7, reset values; spec/00_scope.md section 3, OPEN parameters; spec/41_registry.md
section 6. Model's choices, named in log entries 1 to 6, not rules of the spec: the reset state carries
MAX_FRAME 16, REF_REGISTRY and an unbounded RX_MAX; no OUT buffer has been handed back; there is no event, no
input, no response and no POLL under way. That configuration is well-formed. -/
def Obligations.ResetChoicesOfTheModel : Prop :=
  State.reset.cfg = ⟨16, refRegistry, none⟩ ∧ State.reset.cfg.wf = true ∧ State.reset.outs = [] ∧
    State.reset.events = [] ∧ State.reset.inputs = [] ∧ State.reset.responses = [] ∧ State.reset.task = .idle

/-- spec/10_state.md section 7, reset values; spec/41_registry.md section 1. State.Inv holds at reset: the
configuration is well-formed, every OUT buffer is canonical, and the harness bounds hold. -/
def Obligations.ResetMeetsTheInvariant : Prop :=
  State.reset.Inv

/-- spec/70_reset_and_hazards.md section 1; spec/41_registry.md section 1; spec/20_memory.md section 1. For every
state with the invariant (well-formed configuration; every OUT buffer canonical; a closed connection holds no
bytes; between harness steps rx holds no terminator; outside a RECV rx keeps within RX_MAX; no event names an
offset the cursor has not reached), if step answers a next state then that state has the invariant too. The task
and input fields are the model's own (log entries 4 and 5). -/
def Obligations.EveryStepKeepsTheInvariant : Prop :=
  ∀ s t : State, s.Inv → step s = .next t → t.Inv

/-- spec/10_state.md sections 2 and 6; spec/20_memory.md section 6, instruction coherence. For every state, whatever
a step or an instruction does, the configuration constants and the registry ROM of the next state are those of
the state before. -/
def Obligations.NoStepChangesTheConfiguration : Prop :=
  (∀ s t : State, step s = .next t → t.cfg = s.cfg) ∧
  (∀ (i : Instr) (s t : State), exec i s = .next t → t.cfg = s.cfg)

/-- spec/00_scope.md section 4, buffer accesses; spec/10_state.md section 3, invalid fields; spec/60_exceptions.md
section 1. The two faults of the model (a byte access outside its buffer, a read of a response field that holds
no value) are reached by no instruction and by no step, in any state, well-formed configuration or not: the spec
has no trap, and says such an access never occurs in a well-formed configuration. -/
def Obligations.NothingFaults : Prop :=
  (∀ (i : Instr) (s : State) (f : Fault), exec i s ≠ .fault f) ∧ ∀ (s : State) (f : Fault), step s ≠ .fault f

/-- spec/60_exceptions.md sections 1 and 6; spec/41_registry.md section 1. In every state with a well-formed
configuration, every instruction, with any operands, answers a next state. The one exception is a SERIALIZE
whose payload is longer than CAP, which the spec refuses. -/
def Obligations.ConfiguredBlockRunsEveryInstruction : Prop :=
  ∀ (i : Instr) (s : State), s.cfg.wf = true →
    (∀ snd rcv p out, i = .serialize snd rcv p out → p.length ≤ s.cfg.cap) →
    ∃ t, exec i s = .next t

/-- spec/41_registry.md section 1; spec/70_reset_and_hazards.md section 2, reset and boot. In a state whose
configuration breaks a condition of well-formedness, every instruction is refused as such, and step answers no
next state: an ill-formed registry never produces a running block. That the refusal ends the run is the model's
choice (log entry 11), and the bounds on MAX_FRAME and RX_MAX among the conditions are deduced (log entry 16). -/
def Obligations.IllFormedConfigurationAnswersNothing : Prop :=
  ∀ s : State, s.cfg.wf = false →
    (∀ i : Instr, exec i s = .refused .illFormedConfiguration) ∧ ∀ t : State, step s ≠ .next t

/-- spec/60_exceptions.md section 6; spec/40_framer.md section 2. With a well-formed configuration, a SERIALIZE
request whose payload is longer than CAP is refused, whatever its addresses and capacity. That the refusal ends
the run is the model's choice (log entry 11). -/
def Obligations.OverlongSerializePayloadIsRefused : Prop :=
  ∀ (s : State) (snd rcv : Byte) (p : List Byte) (out : OutBuffer), s.cfg.wf = true → s.cfg.cap < p.length →
    exec (.serialize snd rcv p out) s = .refused .payloadOverCapacity

/-- spec/30_encoding.md section 8, request port; spec/60_exceptions.md section 6. With a request at the head of the
inputs and no POLL under way, step refuses it at the port exactly when op is 7, or the kind id of a TEMPLATE or
ENCODE is above 81, or a CODEC has dir above 1 or a codec above 15, or a CODEC or ENCODE has a tag above 8 or a
parameter field wider than its declared width. Fields the operation does not name are not checked. The record
form of a request and that a refusal ends the run are the model's choices (log entries 7 and 11). -/
def Obligations.PortRefusesExactlyBadRequests : Prop :=
  ∀ (s : State) (r : PortRequest) (rest : List Input), s.task = .idle → s.inputs = .request r :: rest →
    ((∃ why, step s = .refused (.port why)) ↔ BadRequest r)

/-- R105, R107. With a well-formed configuration EXTRACT always answers. A buffer without 0xFF is X_INCOMPLETE with
consumed 0. A buffer that begins with 0xFF is X_CORRUPT with TERM_AT_ZERO. For a buffer of a header other than
0xFF, bytes p without 0xFF, then 0xFF and anything: if p is longer than CAP it is X_CORRUPT with OVER_CAPACITY,
else X_FRAME with the sender header[6:4], the receiver header[3:0], the payload p and consumed |p| + 2. No other
field is valid, and nothing but the response changes. The response list, and OUT as an operand that is handed
back, are the model's form of the port (log entries 2 and 6). -/
def Obligations.ExtractFollowsTheFirstTerminator : Prop :=
  ∀ s : State, s.cfg.wf = true →
    (∀ buf : List Byte, 0xFF ∉ buf →
      exec (.extract buf) s = .next (answered s (.extract ⟨.incomplete, none, none, some 0⟩))) ∧
    (∀ rest : List Byte,
      exec (.extract (0xFF :: rest)) s =
        .next (answered s (.extract ⟨.corrupt, some .termAtZero, none, none⟩))) ∧
    (∀ (hdr : Byte) (p rest : List Byte), hdr ≠ 0xFF → 0xFF ∉ p →
      (s.cfg.cap < p.length →
        exec (.extract (hdr :: (p ++ 0xFF :: rest))) s =
          .next (answered s (.extract ⟨.corrupt, some .overCapacity, none, none⟩))) ∧
      (p.length ≤ s.cfg.cap →
        exec (.extract (hdr :: (p ++ 0xFF :: rest))) s =
          .next (answered s (.extract ⟨.frame, none,
            some ⟨BitVec.ofNat 3 (hdr.toNat / 16 % 8), BitVec.ofNat 4 (hdr.toNat % 16), p⟩,
            some ((p.length : Int) + 2)⟩))))

/-- spec/40_framer.md section 3, partial-data stability. For a frame whose header is not 0xFF and whose payload of
at most CAP bytes holds no 0xFF: EXTRACT of every strict prefix is X_INCOMPLETE with consumed 0, and EXTRACT of
the frame followed by any bytes is the frame with consumed its length. The response list, and OUT as an operand
that is handed back, are the model's form of the port (log entries 2 and 6). -/
def Obligations.ExtractIsStableUnderPartialData : Prop :=
  ∀ (s : State) (h : Header) (p : List Byte), s.cfg.wf = true → h.wf = true → 0xFF ∉ p → p.length ≤ s.cfg.cap →
    (∀ m, m < (frame h p).length →
      exec (.extract ((frame h p).take m)) s = .next (answered s (.extract ⟨.incomplete, none, none, some 0⟩))) ∧
    (∀ rest : List Byte,
      exec (.extract (frame h p ++ rest)) s =
        .next (answered s (.extract ⟨.frame, none, some ⟨h.sender, h.receiver, p⟩,
          some ((frame h p).length : Int)⟩)))

/-- R113. With a well-formed configuration, addresses in range, a payload of at most CAP bytes and room for
|payload| + 2 bytes, SERIALIZE answers E_OK with that length; OUT[0 .. |payload|+2) holds the header 0x80 |
sender << 4 | receiver, the payload as given (0xFF bytes included) and 0xFF; every byte of that OUT at |payload|
+ 2 and above reads as the caller handed it in; nothing else of the state, no OUT buffer of an earlier request
among it, changes but the response. The response list, and OUT as an operand that is handed back, are the
model's form of the port (log entries 2 and 6). -/
def Obligations.SerializeWritesTheFrame : Prop :=
  ∀ (s : State) (snd rcv : Byte) (p : List Byte) (out : OutBuffer),
    s.cfg.wf = true → p.length ≤ s.cfg.cap → snd.toNat ≤ 7 → rcv.toNat ≤ 15 → p.length + 2 ≤ out.capacity →
    ∃ m : Memory,
      exec (.serialize snd rcv p out) s =
        .next (handedBack s m (.serialize ⟨.ok, p.length + 2,
          some ((0x80 ||| (snd <<< 4) ||| rcv) :: (p ++ [0xFF]))⟩)) ∧
      (∀ j, j < p.length + 2 → m.read j = ((0x80 ||| (snd <<< 4) ||| rcv) :: (p ++ [0xFF]))[j]?) ∧
      KeepsOutFrom (p.length + 2) out m

/-- spec/40_framer.md section 2, address range, capacity and check order; spec/60_exceptions.md section 1, error
response. With a well-formed configuration and a payload of at most CAP bytes: a sender above 7 or a receiver
above 15 gives ERR_ADDRESS_RANGE with length 0, whatever the capacity; addresses in range and |payload| + 2
above the capacity given with the request give ERR_CAPACITY with length 0. In both cases the request's OUT reads
as the caller handed it in and nothing else of the state changes but the response. That the address error comes
first is the check order of R116, which the spec marks as its own decision (D14); the length 0 is that of R36
and R256. The response list, and OUT as an operand that is handed back, are the model's form of the port (log
entries 2 and 6). -/
def Obligations.SerializeFailsBeforeAnyWrite : Prop :=
  ∀ (s : State) (snd rcv : Byte) (p : List Byte) (out : OutBuffer), s.cfg.wf = true → p.length ≤ s.cfg.cap →
    (7 < snd.toNat ∨ 15 < rcv.toNat →
      FailsKeepingOut (.serialize snd rcv p out) s out
        (.serialize ⟨.error .addressRange, 0, none⟩)) ∧
    (snd.toNat ≤ 7 ∧ rcv.toNat ≤ 15 → out.capacity < p.length + 2 →
      FailsKeepingOut (.serialize snd rcv p out) s out (.serialize ⟨.error .capacity, 0, none⟩))

/-- R121, R122. With a well-formed configuration: if no row matches the payload (its length, and each byte under the
mask equal to the signature byte) CLASSIFY answers C_UNKNOWN with the kind UNKNOWN; if e is the first row that
matches, it answers C_MATCH with the kind of e, its index, and the parameters its codec decodes from the
payload. Nothing but the response changes. The response list, and OUT as an operand that is handed back, are the
model's form of the port (log entries 2 and 6). -/
def Obligations.ClassifyGivesTheFirstMatchingRow : Prop :=
  ∀ (s : State) (p : List Byte), s.cfg.wf = true →
    ((∀ e ∈ s.cfg.rows, ¬ Matches p e) →
      exec (.classify p) s = .next (answered s (.classify ⟨.unknown, some .unknown, none, none⟩))) ∧
    (∀ (pre : List Entry) (e : Entry), FirstMatch s.cfg p pre e →
      ∃ prm, codecDecode e.codec p = .ok prm ∧
        exec (.classify p) s =
          .next (answered s (.classify ⟨.matched, some e.kind, some pre.length, some prm⟩)))

/-- spec/41_registry.md section 4. For any two rows that are well-formed under some capacity, a payload that matches
both exists exactly when their lengths are equal and at every offset the signature of each under the mask of the
other is the same byte. -/
def Obligations.RowsOverlapWhenTheirFixedBitsAgree : Prop :=
  ∀ (cap : Nat) (a b : Entry), a.wf cap = true → b.wf cap = true →
    ((∃ p, Matches p a ∧ Matches p b) ↔
      (a.length = b.length ∧
        ∀ k < a.length, a.signature.getD k 0 &&& b.mask.getD k 0 = b.signature.getD k 0 &&& a.mask.getD k 0))

/-- spec/30_encoding.md section 5, shadowed encodings; spec/41_registry.md section 6. Of all pairs i < j of the 82
rows of REF_REGISTRY, exactly (0,1), (8,9), (32,35) and (34,35) overlap. -/
def Obligations.ReferenceRegistryOverlapsInFourPairs : Prop :=
  refRows.length = 82 ∧
  ∀ i < 82, ∀ j < 82,
    (i < j ∧ (refRows.getD i sentinel).overlaps (refRows.getD j sentinel) = true ↔
      (i, j) ∈ [(0, 1), (8, 9), (32, 35), (34, 35)])

/-- spec/41_registry.md section 6. A configuration with REF_REGISTRY is well-formed for every MAX_FRAME of at least
15 with RX_MAX unbounded or at least MAX_FRAME, and for no smaller MAX_FRAME. The bound on RX_MAX as a condition
is deduced (log entry 16). -/
def Obligations.ReferenceRegistryIsWellFormed : Prop :=
  (∀ n : Nat, 15 ≤ n → Config.wf ⟨n, refRegistry, none⟩ = true) ∧
  (∀ n bound : Nat, 15 ≤ n → n ≤ bound → Config.wf ⟨n, refRegistry, some bound⟩ = true) ∧
  (∀ (n : Nat) (bound : Option Nat), n < 15 → Config.wf ⟨n, refRegistry, bound⟩ = false)

/-- spec/41_registry.md section 5. With a well-formed configuration: if e is the first row that holds the kind,
TEMPLATE answers E_OK with e whole and its index; if no row holds it, TEMPLATE raises ERR_UNKNOWN_KIND. Nothing
but the response changes. The response list, and OUT as an operand that is handed back, are the model's form of
the port (log entries 2 and 6). That a TEMPLATE response has a length on an error only, 0 by R256, is deduced
(log entry 19). -/
def Obligations.TemplateGivesTheFirstRowOfAKind : Prop :=
  ∀ (s : State) (k : Kind), s.cfg.wf = true →
    (∀ (pre : List Entry) (e : Entry), FirstOfKind s.cfg k pre e →
      exec (.template k) s = .next (answered s (.template ⟨.ok, none, some e, some pre.length⟩))) ∧
    ((∀ e ∈ s.cfg.rows, e.kind ≠ k) →
      exec (.template k) s = .next (answered s (.template ⟨.error .unknownKind, some 0, none, none⟩)))

/-- spec/41_registry.md section 6. In every state configured with REF_REGISTRY, TEMPLATE raises ERR_UNKNOWN_KIND for
UNKNOWN, and for every other kind answers E_OK with a row of that kind. That a TEMPLATE response has a length on
an error only, 0 by R256, is deduced (log entry 19). -/
def Obligations.TemplateFailsOnlyForUnknown : Prop :=
  ∀ s : State, s.refConfigured →
    exec (.template .unknown) s = .next (answered s (.template ⟨.error .unknownKind, some 0, none, none⟩)) ∧
    ∀ k : Kind, k ≠ .unknown →
      ∃ (e : Entry) (row : Nat), e.kind = k ∧ refRows[row]? = some e ∧
        exec (.template k) s = .next (answered s (.template ⟨.ok, none, some e, some row⟩))

/-- spec/41_registry.md section 5, kinds with several rows. With REF_REGISTRY, TEMPLATE of MENU_ENTER answers row 32
with the signature 01 06 06 05; CLASSIFY of the payload 01 7E 01 02 00 01 answers MENU_ENTER from row 33. That a
TEMPLATE response has a length on an error only, 0 by R256, is deduced (log entry 19). -/
def Obligations.MenuEnterEncodesAsItsFirstRow : Prop :=
  ∀ s : State, s.refConfigured →
    (∃ e : Entry, e.signature = [0x01, 0x06, 0x06, 0x05] ∧
      exec (.template .menuEnter) s = .next (answered s (.template ⟨.ok, none, some e, some 32⟩))) ∧
    exec (.classify [0x01, 0x7E, 0x01, 0x02, 0x00, 0x01]) s =
      .next (answered s (.classify ⟨.matched, some .menuEnter, some 33, some .none⟩))

/-- R133. For every buffer and offset with the bytes inside: unpack2 answers (b0 mod 16)*0x10 + (b1 mod 16) as 8
bits, and unpack4 answers (b0 mod 16)*0x1000 + (b1 mod 16)*0x100 + (b2 mod 16)*0x10 + (b3 mod 16) as 16 bits.
The high nibbles play no part. -/
def Obligations.UnpackReadsLowNibblesMostSignificantFirst : Prop :=
  ∀ (b : List Byte) (o : Nat),
    (o + 1 < b.length → ∃ v : BitVec 8, unpack2 b o = .ok v ∧
      v.toNat = (b.getD o 0).toNat % 16 * 0x10 + (b.getD (o + 1) 0).toNat % 16) ∧
    (o + 3 < b.length → ∃ v : BitVec 16, unpack4 b o = .ok v ∧
      v.toNat = (b.getD o 0).toNat % 16 * 0x1000 + (b.getD (o + 1) 0).toNat % 16 * 0x100 +
        (b.getD (o + 2) 0).toNat % 16 * 0x10 + (b.getD (o + 3) 0).toNat % 16)

/-- spec/42_param_codecs.md section 1. For every buffer and offset with the bytes inside, pack2 and pack4 answer a
buffer of the same length in which byte o+i is the old byte OR digit i of the value (most significant first) and
every other byte is as it was; if the old low nibbles are 0, unpacking gives the value back. -/
def Obligations.PackOrsDigitsIntoLowNibbles : Prop :=
  ∀ (b : List Byte) (o : Nat),
    (∀ v : BitVec 8, o + 1 < b.length → ∃ b', pack2 b o v = .ok b' ∧ b'.length = b.length ∧
      (∀ i < 2, b'.getD (o + i) 0 = b.getD (o + i) 0 ||| digit v.toNat (1 - i)) ∧
      (∀ k, k < o ∨ o + 2 ≤ k → b'.getD k 0 = b.getD k 0) ∧
      ((∀ i < 2, (b.getD (o + i) 0).toNat % 16 = 0) → unpack2 b' o = .ok v)) ∧
    (∀ v : BitVec 16, o + 3 < b.length → ∃ b', pack4 b o v = .ok b' ∧ b'.length = b.length ∧
      (∀ i < 4, b'.getD (o + i) 0 = b.getD (o + i) 0 ||| digit v.toNat (3 - i)) ∧
      (∀ k, k < o ∨ o + 4 ≤ k → b'.getD k 0 = b.getD k 0) ∧
      ((∀ i < 4, (b.getD (o + i) 0).toNat % 16 = 0) → unpack4 b' o = .ok v))

/-- spec/42_param_codecs.md section 3, BYTE_CMD and BYTE_RSP. On every work buffer that reaches the field: BYTE_CMD
decodes ONE_BYTE with the byte at offset 3 and encodes by assigning it; BYTE_RSP the same at offset 1; every
other byte stays, 0xFF included as a value; any other variant raises ERR_PARAM_SHAPE. Nothing but the response
changes. The work buffer as an operand and in the response is the model's form (log entry 18); that a CODEC
response has a length on an error only, 0 by R256, is deduced (log entry 19). -/
def Obligations.FullByteCodecsReadAndAssignOneByte : Prop :=
  (∀ (a b c v : Byte) (rest : List Byte),
    CodecDecodes .byteCmd (a :: b :: c :: v :: rest) (.oneByte v) ∧
    (∀ w : Byte, CodecEncodes .byteCmd (a :: b :: c :: v :: rest) (.oneByte w) (a :: b :: c :: w :: rest)) ∧
    RejectsOtherShapes .byteCmd (a :: b :: c :: v :: rest) .oneByte) ∧
  (∀ (a v : Byte) (rest : List Byte),
    CodecDecodes .byteRsp (a :: v :: rest) (.oneByte v) ∧
    (∀ w : Byte, CodecEncodes .byteRsp (a :: v :: rest) (.oneByte w) (a :: w :: rest)) ∧
    RejectsOtherShapes .byteRsp (a :: v :: rest) .oneByte)

/-- spec/42_param_codecs.md section 3, P_CMD and P_RSP. On every work buffer that reaches the field: P_CMD decodes
ONE_BYTE with bits 3:0 of the byte at offset 3, zero-extended; encodes a value of at most 15 by OR into that
byte; raises ERR_PARAM_RANGE for a larger one and ERR_PARAM_SHAPE for another variant. P_RSP is the same at
offset 1. The work buffer as an operand and in the response is the model's form (log entry 18); that a CODEC
response has a length on an error only, 0 by R256, is deduced (log entry 19). -/
def Obligations.NibbleCodecsReadAndOrOneDigit : Prop :=
  (∀ (a b c v : Byte) (rest : List Byte),
    CodecDecodes .pCmd (a :: b :: c :: v :: rest) (.oneByte (digit v.toNat 0)) ∧
    (∀ w : Byte, w.toNat ≤ 15 →
      CodecEncodes .pCmd (a :: b :: c :: v :: rest) (.oneByte w) (a :: b :: c :: (v ||| w) :: rest)) ∧
    (∀ w : Byte, 15 < w.toNat → CodecFails .encode .pCmd (a :: b :: c :: v :: rest) (.oneByte w) .paramRange) ∧
    RejectsOtherShapes .pCmd (a :: b :: c :: v :: rest) .oneByte) ∧
  (∀ (a v : Byte) (rest : List Byte),
    CodecDecodes .pRsp (a :: v :: rest) (.oneByte (digit v.toNat 0)) ∧
    (∀ w : Byte, w.toNat ≤ 15 → CodecEncodes .pRsp (a :: v :: rest) (.oneByte w) (a :: (v ||| w) :: rest)) ∧
    (∀ w : Byte, 15 < w.toNat → CodecFails .encode .pRsp (a :: v :: rest) (.oneByte w) .paramRange) ∧
    RejectsOtherShapes .pRsp (a :: v :: rest) .oneByte)

/-- spec/42_param_codecs.md section 3, PQ_CMD, PQ_RSP, PQRS_CMD and PQRS_RSP. On every work buffer that reaches the
fields: PQ_CMD and PQ_RSP decode ONE_BYTE from two digits at offset 3 or 1 and encode by OR of the two digits of
any value; PQRS_CMD and PQRS_RSP decode TWO_BYTE from four digits and encode by OR of the four digits of any
value; other bytes stay; another variant raises ERR_PARAM_SHAPE and no value raises a range error. The work
buffer as an operand and in the response is the model's form (log entry 18); that a CODEC response has a length
on an error only, 0 by R256, is deduced (log entry 19). -/
def Obligations.PackedCodecsReadAndOrTheirDigits : Prop :=
  (∀ (a b c d e : Byte) (rest : List Byte),
    CodecDecodes .pqCmd (a :: b :: c :: d :: e :: rest) (.oneByte (BitVec.ofNat 8 (digitValue [d, e]))) ∧
    (∀ w : Byte, CodecEncodes .pqCmd (a :: b :: c :: d :: e :: rest) (.oneByte w)
      (a :: b :: c :: (d ||| digit w.toNat 1) :: (e ||| digit w.toNat 0) :: rest)) ∧
    RejectsOtherShapes .pqCmd (a :: b :: c :: d :: e :: rest) .oneByte) ∧
  (∀ (a d e : Byte) (rest : List Byte),
    CodecDecodes .pqRsp (a :: d :: e :: rest) (.oneByte (BitVec.ofNat 8 (digitValue [d, e]))) ∧
    (∀ w : Byte, CodecEncodes .pqRsp (a :: d :: e :: rest) (.oneByte w)
      (a :: (d ||| digit w.toNat 1) :: (e ||| digit w.toNat 0) :: rest)) ∧
    RejectsOtherShapes .pqRsp (a :: d :: e :: rest) .oneByte) ∧
  (∀ (a b c d e f g : Byte) (rest : List Byte),
    CodecDecodes .pqrsCmd (a :: b :: c :: d :: e :: f :: g :: rest)
      (.twoByte (BitVec.ofNat 16 (digitValue [d, e, f, g]))) ∧
    (∀ w : Half, CodecEncodes .pqrsCmd (a :: b :: c :: d :: e :: f :: g :: rest) (.twoByte w)
      (a :: b :: c :: (d ||| digit w.toNat 3) :: (e ||| digit w.toNat 2) :: (f ||| digit w.toNat 1) ::
        (g ||| digit w.toNat 0) :: rest)) ∧
    RejectsOtherShapes .pqrsCmd (a :: b :: c :: d :: e :: f :: g :: rest) .twoByte) ∧
  (∀ (a d e f g : Byte) (rest : List Byte),
    CodecDecodes .pqrsRsp (a :: d :: e :: f :: g :: rest)
      (.twoByte (BitVec.ofNat 16 (digitValue [d, e, f, g]))) ∧
    (∀ w : Half, CodecEncodes .pqrsRsp (a :: d :: e :: f :: g :: rest) (.twoByte w)
      (a :: (d ||| digit w.toNat 3) :: (e ||| digit w.toNat 2) :: (f ||| digit w.toNat 1) ::
        (g ||| digit w.toNat 0) :: rest)) ∧
    RejectsOtherShapes .pqrsRsp (a :: d :: e :: f :: g :: rest) .twoByte)

/-- spec/42_param_codecs.md section 3, PT_ABS and PT_DRIVE. On every work buffer that reaches the fields: PT_ABS
decodes the speeds at offsets 3 and 4 and the positions from four digits at 5 to 8 and 9 to 12, and encodes by
assigning the speeds and OR-ing the digits; PT_DRIVE decodes and assigns the four bytes at offsets 3, 4, 5, 6;
other bytes stay; another variant raises ERR_PARAM_SHAPE. The work buffer as an operand and in the response is
the model's form (log entry 18); that a CODEC response has a length on an error only, 0 by R256, is deduced (log
entry 19). -/
def Obligations.PanTiltCodecsReadAndWriteTheirFields : Prop :=
  (∀ (a b c v w d e f g i j k l : Byte) (rest : List Byte),
    CodecDecodes .ptAbs (a :: b :: c :: v :: w :: d :: e :: f :: g :: i :: j :: k :: l :: rest)
      (.ptPosition v w (BitVec.ofNat 16 (digitValue [d, e, f, g])) (BitVec.ofNat 16 (digitValue [i, j, k, l]))) ∧
    (∀ (panSpeed tiltSpeed : Byte) (pan tilt : Half),
      CodecEncodes .ptAbs (a :: b :: c :: v :: w :: d :: e :: f :: g :: i :: j :: k :: l :: rest)
        (.ptPosition panSpeed tiltSpeed pan tilt)
        (a :: b :: c :: panSpeed :: tiltSpeed ::
          (d ||| digit pan.toNat 3) :: (e ||| digit pan.toNat 2) :: (f ||| digit pan.toNat 1) ::
          (g ||| digit pan.toNat 0) ::
          (i ||| digit tilt.toNat 3) :: (j ||| digit tilt.toNat 2) :: (k ||| digit tilt.toNat 1) ::
          (l ||| digit tilt.toNat 0) :: rest)) ∧
    RejectsOtherShapes .ptAbs (a :: b :: c :: v :: w :: d :: e :: f :: g :: i :: j :: k :: l :: rest)
      .ptPosition) ∧
  (∀ (a b c v w x y : Byte) (rest : List Byte),
    CodecDecodes .ptDrive (a :: b :: c :: v :: w :: x :: y :: rest) (.ptDrive v w x y) ∧
    (∀ v' w' x' y' : Byte,
      CodecEncodes .ptDrive (a :: b :: c :: v :: w :: x :: y :: rest) (.ptDrive v' w' x' y')
        (a :: b :: c :: v' :: w' :: x' :: y' :: rest)) ∧
    RejectsOtherShapes .ptDrive (a :: b :: c :: v :: w :: x :: y :: rest) .ptDrive)

/-- spec/42_param_codecs.md section 3, NONE, PT_RESP and MEMORY. NONE decodes NONE from any buffer and leaves any
buffer as it is, whatever the parameters. PT_RESP decodes the two positions at offsets 1 to 4 and 5 to 8 with
both speeds 0, and encodes the positions by OR, ignoring the speeds. MEMORY decodes the index at offset 4 and
the mode at offset 3, and encodes by assigning the index only. Another variant than its own raises
ERR_PARAM_SHAPE for PT_RESP and MEMORY. The work buffer as an operand and in the response is the model's form
(log entry 18); that a CODEC response has a length on an error only, 0 by R256, is deduced (log entry 19). -/
def Obligations.PartlyReadOnlyCodecs : Prop :=
  (∀ (work : List Byte) (prm : Params), CodecDecodes .none work .none ∧ CodecEncodes .none work prm work) ∧
  (∀ (a d e f g i j k l : Byte) (rest : List Byte),
    CodecDecodes .ptResp (a :: d :: e :: f :: g :: i :: j :: k :: l :: rest)
      (.ptPosition 0 0 (BitVec.ofNat 16 (digitValue [d, e, f, g])) (BitVec.ofNat 16 (digitValue [i, j, k, l]))) ∧
    (∀ (panSpeed tiltSpeed : Byte) (pan tilt : Half),
      CodecEncodes .ptResp (a :: d :: e :: f :: g :: i :: j :: k :: l :: rest)
        (.ptPosition panSpeed tiltSpeed pan tilt)
        (a :: (d ||| digit pan.toNat 3) :: (e ||| digit pan.toNat 2) :: (f ||| digit pan.toNat 1) ::
          (g ||| digit pan.toNat 0) ::
          (i ||| digit tilt.toNat 3) :: (j ||| digit tilt.toNat 2) :: (k ||| digit tilt.toNat 1) ::
          (l ||| digit tilt.toNat 0) :: rest)) ∧
    RejectsOtherShapes .ptResp (a :: d :: e :: f :: g :: i :: j :: k :: l :: rest) .ptPosition) ∧
  (∀ (a b c m n : Byte) (rest : List Byte),
    CodecDecodes .memory (a :: b :: c :: m :: n :: rest) (.memory n m) ∧
    (∀ index mode : Byte,
      CodecEncodes .memory (a :: b :: c :: m :: n :: rest) (.memory index mode)
        (a :: b :: c :: m :: index :: rest)) ∧
    RejectsOtherShapes .memory (a :: b :: c :: m :: n :: rest) .memory)

/-- spec/42_param_codecs.md section 3, SOCKET, ERROR and CAMNUM; spec/42_param_codecs.md section 4, additive writes.
On every work buffer that reaches the fields: SOCKET decodes bits 3:0 of the byte at offset 0 and encodes by
adding the socket to that byte modulo 256; CAMNUM the same at offset 1 with the index; ERROR decodes bits 3:0 of
offset 0 and the byte at offset 1, and encodes by adding the socket to the first and the code to the second.
Other bytes stay; another variant raises ERR_PARAM_SHAPE. Keeping the addition modulo 256 on any buffer is
marked by the spec as its own decision (D30). The work buffer as an operand and in the response is the model's
form (log entry 18); that a CODEC response has a length on an error only, 0 by R256, is deduced (log entry 19). -/
def Obligations.AdditiveCodecsAddToTheirFields : Prop :=
  (∀ (a : Byte) (rest : List Byte),
    CodecDecodes .socket (a :: rest) (.socket (lowBits a)) ∧
    (∀ z : Nibble, CodecEncodes .socket (a :: rest) (.socket z)
      (BitVec.ofNat 8 (a.toNat + z.toNat) :: rest)) ∧
    RejectsOtherShapes .socket (a :: rest) .socket) ∧
  (∀ (a b : Byte) (rest : List Byte),
    CodecDecodes .camnum (a :: b :: rest) (.cameraNumber (lowBits b)) ∧
    (∀ z : Nibble, CodecEncodes .camnum (a :: b :: rest) (.cameraNumber z)
      (a :: BitVec.ofNat 8 (b.toNat + z.toNat) :: rest)) ∧
    RejectsOtherShapes .camnum (a :: b :: rest) .cameraNumber) ∧
  (∀ (a b : Byte) (rest : List Byte),
    CodecDecodes .error (a :: b :: rest) (.errorReply (lowBits a) b) ∧
    (∀ (z : Nibble) (code : Byte), CodecEncodes .error (a :: b :: rest) (.errorReply z code)
      (BitVec.ofNat 8 (a.toNat + z.toNat) :: BitVec.ofNat 8 (b.toNat + code.toNat) :: rest)) ∧
    RejectsOtherShapes .error (a :: b :: rest) .errorReply)

/-- spec/43_entry_points.md section 3; spec/42_param_codecs.md section 4, least lengths. The least lengths are those
of the table. On a shorter work buffer both directions of CODEC raise ERR_CAPACITY, before any check of the
parameters, and nothing but the response changes; on a buffer of at least that length CODEC never raises it. The
work buffer as an operand and in the response is the model's form (log entry 18); that a CODEC response has a
length on an error only, 0 by R256, is deduced (log entry 19). -/
def Obligations.ShortCodecBufferIsACapacityError : Prop :=
  ([CodecId.none, .byteCmd, .byteRsp, .pCmd, .pRsp, .pqCmd, .pqRsp, .pqrsCmd, .pqrsRsp, .ptAbs, .ptResp, .ptDrive,
      .socket, .error, .camnum, .memory].map CodecId.minLen =
    [0, 4, 2, 4, 2, 5, 3, 7, 5, 13, 9, 7, 1, 2, 2, 5]) ∧
  (∀ (dir : Dir) (c : CodecId) (work : List Byte) (prm : Params), work.length < c.minLen →
    CodecFails dir c work prm .capacity) ∧
  (∀ (dir : Dir) (c : CodecId) (work : List Byte) (prm : Params) (s t : State), c.minLen ≤ work.length →
    exec (.codec dir c work prm) s = .next t →
    t.responses ≠ s.responses ++ [.codec ⟨.error .capacity, some 0, none, none⟩])

/-- spec/42_param_codecs.md section 4, codec round-trip. For a row well-formed under any capacity and parameters
that pass its check, the encode direction over the signature succeeds, and the decode direction of the result
gives the parameters back, with PT_RESP speeds 0, the MEMORY mode of the signature, and NONE for a codec-less
row. -/
def Obligations.CodecRoundTripOnAFreshTemplate : Prop :=
  ∀ (cap : Nat) (e : Entry) (prm : Params), e.wf cap = true → CheckPasses e.codec prm →
    ∃ P, codecEncode e.codec e.signature prm = .ok P ∧ codecDecode e.codec P = .ok (normalised e prm)

/-- spec/42_param_codecs.md section 4, bits a codec touches; spec/41_registry.md section 1, W4 and W8. For a row
well-formed under any capacity, whatever the encode direction writes over the signature still has the length of
the row and equals the signature under the mask, so it matches the row. -/
def Obligations.EncodedPayloadMatchesItsRow : Prop :=
  ∀ (cap : Nat) (e : Entry) (prm : Params) (P : List Byte), e.wf cap = true →
    codecEncode e.codec e.signature prm = .ok P → Matches P e

/-- spec/70_reset_and_hazards.md section 2, CODEC is not idempotent. Encoding SOCKET 1 over the buffer 40 gives 41,
over 41 gives 42, which decodes as socket 2, and over 4F gives 50. The work buffer as an operand and in the
response is the model's form (log entry 18); that a CODEC response has a length on an error only, 0 by R256, is
deduced (log entry 19). -/
def Obligations.CodecEncodeIsNotIdempotent : Prop :=
  CodecEncodes .socket [0x40] (.socket 1) [0x41] ∧ CodecEncodes .socket [0x41] (.socket 1) [0x42] ∧
  CodecDecodes .socket [0x42] (.socket 2) ∧ CodecEncodes .socket [0x4F] (.socket 1) [0x50]

/-- R161. With a well-formed configuration DECODE always answers: INCOMPLETE with consumed 0 without 0xFF; CORRUPT
with consumed -1 and TERM_AT_ZERO with 0xFF first; for a header other than 0xFF, bytes p without 0xFF, 0xFF and
anything: CORRUPT with OVER_CAPACITY if p is over CAP; UNKNOWN_MSG with consumed |p| + 2 and both addresses if
no row matches p; MESSAGE with the kind and the decoded parameters of the first row that matches. Nothing but
the response changes. The response list, and OUT as an operand that is handed back, are the model's form of the
port (log entries 2 and 6). -/
def Obligations.DecodeOutcomesFollowTheFirstTerminator : Prop :=
  ∀ s : State, s.cfg.wf = true →
    (∀ buf : List Byte, 0xFF ∉ buf →
      exec (.decode buf) s =
        .next (answered s (.decode ⟨.incomplete, some 0, none, none, none, none, none⟩))) ∧
    (∀ rest : List Byte,
      exec (.decode (0xFF :: rest)) s =
        .next (answered s (.decode ⟨.corrupt, some (-1), none, none, none, none, some .termAtZero⟩))) ∧
    (∀ (hdr : Byte) (p rest : List Byte), hdr ≠ 0xFF → 0xFF ∉ p →
      (s.cfg.cap < p.length →
        exec (.decode (hdr :: (p ++ 0xFF :: rest))) s =
          .next (answered s (.decode ⟨.corrupt, some (-1), none, none, none, none, some .overCapacity⟩))) ∧
      (p.length ≤ s.cfg.cap → (∀ e ∈ s.cfg.rows, ¬ Matches p e) →
        exec (.decode (hdr :: (p ++ 0xFF :: rest))) s =
          .next (answered s (.decode ⟨.unknownMsg, some ((p.length : Int) + 2),
            some (BitVec.ofNat 3 (hdr.toNat / 16 % 8)), some (BitVec.ofNat 4 (hdr.toNat % 16)),
            some .unknown, none, none⟩))) ∧
      (p.length ≤ s.cfg.cap → ∀ (pre : List Entry) (e : Entry), FirstMatch s.cfg p pre e →
        ∃ prm, codecDecode e.codec p = .ok prm ∧
          exec (.decode (hdr :: (p ++ 0xFF :: rest))) s =
            .next (answered s (.decode ⟨.message, some ((p.length : Int) + 2),
              some (BitVec.ofNat 3 (hdr.toNat / 16 % 8)), some (BitVec.ofNat 4 (hdr.toNat % 16)),
              some e.kind, some prm, none⟩))))

/-- spec/44_msg_replies.md; spec/45_msg_ptz_lens.md; spec/46_msg_image.md; spec/70_reset_and_hazards.md section 2,
shadowed kinds. In every state configured with REF_REGISTRY, DECODE of the frame of any well-formed message of
the opcode table, followed by any bytes, answers MESSAGE with consumed the length of the frame and the kind,
parameters, sender and receiver of the message; for the payloads an earlier row takes (RESP_P, CAMNUM_REPLY 1,
MENU_MODE 4 and 5), those of the earlier message. -/
def Obligations.DecodeReadsEveryMessage : Prop :=
  ∀ (s : State) (i : Instr) (m : Message) (rest : List Byte),
    s.refConfigured → i.wf = true → typedMessage (shadowedBy i) = some m →
    exec (.decode (wireBytes i ++ rest)) s =
      .next (answered s (.decode ⟨.message, some ((wireBytes i).length : Int), some m.sender, some m.receiver,
        some m.kind, some m.params, none⟩))

/-- spec/43_entry_points.md section 2; spec/44_msg_replies.md; spec/45_msg_ptz_lens.md; spec/46_msg_image.md. In
every state configured with REF_REGISTRY, for every message of the opcode table but the second MENU_ENTER row,
with any field values and header marker 1, ENCODE of its kind, parameters and addresses into an OUT with room
answers E_OK; OUT begins with the bytes of the row (0xFF fields and the address pair (7, 15) included), every
byte of that OUT above reads as the caller handed it in, and nothing else changes but the response. -/
def Obligations.EncodeWritesEveryMessage : Prop :=
  ∀ (s : State) (i : Instr) (m : Message) (out : OutBuffer),
    s.refConfigured → typedMessage i = some m → (∀ h, i ≠ .menuEnterVariant h) →
    (wireBytes i).head? = some (0x80 ||| (m.sender.setWidth 8 <<< 4) ||| m.receiver.setWidth 8) →
    (wireBytes i).length ≤ out.capacity →
    ∃ mem : Memory,
      exec (.encode m.kind m.params (m.sender.setWidth 8) (m.receiver.setWidth 8) out) s =
        .next (handedBack s mem (.encode ⟨.ok, (wireBytes i).length, some (wireBytes i)⟩)) ∧
      (∀ j, j < (wireBytes i).length → mem.read j = (wireBytes i)[j]?) ∧
      KeepsOutFrom (wireBytes i).length out mem

/-- spec/43_entry_points.md sections 2 and 4. With a well-formed configuration, for any registry: without a row of
the kind ENCODE raises ERR_UNKNOWN_KIND; with e its first row, it raises ERR_PARAM_SHAPE unless the codec is
NONE or the variant is its own, then ERR_PARAM_RANGE for a P codec with a value above 15, then
ERR_ADDRESS_RANGE, then ERR_CAPACITY if |signature| + 2 is above the capacity; its OUT then reads as the caller
handed it in. Otherwise it answers E_OK with length |signature| + 2 and writes the header, the encoded signature
and 0xFF to its OUT[0 .. length), and no other byte. Nothing else changes but the response. The response list,
and OUT as an operand that is handed back, are the model's form of the port (log entries 2 and 6). -/
def Obligations.EncodeOutcomesInOrder : Prop :=
  ∀ (s : State) (k : Kind) (prm : Params) (snd rcv : Byte) (out : OutBuffer),
    s.cfg.wf = true →
    ((∀ e ∈ s.cfg.rows, e.kind ≠ k) →
      FailsKeepingOut (.encode k prm snd rcv out) s out (.encode ⟨.error .unknownKind, 0, none⟩)) ∧
    (∀ (pre : List Entry) (e : Entry), FirstOfKind s.cfg k pre e →
      (e.codec ≠ .none ∧ prm.shape ≠ codecShape e.codec →
        FailsKeepingOut (.encode k prm snd rcv out) s out (.encode ⟨.error .paramShape, 0, none⟩)) ∧
      ((e.codec = .pCmd ∨ e.codec = .pRsp) ∧ AboveDigit prm →
        FailsKeepingOut (.encode k prm snd rcv out) s out (.encode ⟨.error .paramRange, 0, none⟩)) ∧
      (CheckPasses e.codec prm →
        (7 < snd.toNat ∨ 15 < rcv.toNat →
          FailsKeepingOut (.encode k prm snd rcv out) s out (.encode ⟨.error .addressRange, 0, none⟩)) ∧
        (snd.toNat ≤ 7 ∧ rcv.toNat ≤ 15 → out.capacity < e.signature.length + 2 →
          FailsKeepingOut (.encode k prm snd rcv out) s out (.encode ⟨.error .capacity, 0, none⟩)) ∧
        (snd.toNat ≤ 7 ∧ rcv.toNat ≤ 15 → e.signature.length + 2 ≤ out.capacity →
          ∃ (P : List Byte) (m : Memory), codecEncode e.codec e.signature prm = .ok P ∧
            P.length = e.signature.length ∧
            exec (.encode k prm snd rcv out) s =
              .next (handedBack s m (.encode ⟨.ok, e.signature.length + 2,
                some ((0x80 ||| (snd <<< 4) ||| rcv) :: (P ++ [0xFF]))⟩)) ∧
            (∀ j, j < e.signature.length + 2 →
              m.read j = ((0x80 ||| (snd <<< 4) ||| rcv) :: (P ++ [0xFF]))[j]?) ∧
            KeepsOutFrom (e.signature.length + 2) out m)))

/-- spec/43_entry_points.md section 4, round-trip. For every state with a well-formed configuration, any registry:
if ENCODE of a kind answers bytes with E_OK, the address pair is not (7, 15), no byte but the last is 0xFF, and
no row before the first row of the kind matches the payload, then DECODE of those bytes, with any bytes after
them, answers MESSAGE with the same kind, sender and receiver, the normalised parameters, and consumed equal to
the encoded length. -/
def Obligations.EncodeThenDecodeGivesTheMessageBack : Prop :=
  ∀ (s t : State) (k : Kind) (prm : Params) (snd rcv : Byte) (out : OutBuffer) (n : Nat) (hdr : Byte)
      (P rest : List Byte) (pre : List Entry) (e : Entry),
    s.cfg.wf = true → FirstOfKind s.cfg k pre e →
    exec (.encode k prm snd rcv out) s = .next t →
    t.responses = s.responses ++ [.encode ⟨.ok, n, some (hdr :: (P ++ [0xFF]))⟩] →
    ¬ (snd = 7 ∧ rcv = 15) → 0xFF ∉ P → (∀ d ∈ pre, ¬ Matches P d) →
    exec (.decode (hdr :: (P ++ [0xFF]) ++ rest)) s =
      .next (answered s (.decode ⟨.message, some (n : Int), some (snd.setWidth 3), some (rcv.setWidth 4), some k,
        some (normalised e prm), none⟩))

/-- spec/40_framer.md section 2, header 0xFF; spec/70_reset_and_hazards.md section 2, header 0xFF. With a well-
formed configuration and room, SERIALIZE with sender 7 and receiver 15 answers E_OK with a frame that begins
with 0xFF; DECODE of that frame, with any bytes after it, answers CORRUPT with TERM_AT_ZERO and consumed -1. -/
def Obligations.AddressPairSevenFifteenNeverDecodes : Prop :=
  ∀ (s : State) (p rest : List Byte) (out : OutBuffer),
    s.cfg.wf = true → p.length ≤ s.cfg.cap → p.length + 2 ≤ out.capacity →
    (∃ m, exec (.serialize 7 15 p out) s =
      .next (handedBack s m (.serialize ⟨.ok, p.length + 2, some (0xFF :: (p ++ [0xFF]))⟩))) ∧
    exec (.decode (0xFF :: (p ++ [0xFF]) ++ rest)) s =
      .next (answered s (.decode ⟨.corrupt, some (-1), none, none, none, none, some .termAtZero⟩))

/-- spec/44_msg_replies.md; spec/30_encoding.md section 5, shadowed encodings; spec/70_reset_and_hazards.md section
1, POLL. In every state configured with REF_REGISTRY with the connection open, each of the messages RESP_BYTE to
CAMNUM_REPLY with a header other than 0xFF and full-byte fields other than 0xFF is delivered; RESP_P is
delivered as RESP_BYTE and CAMNUM_REPLY with index 1 as CAMNUM_QUERY, the earlier rows. Delivering a message of
n bytes: its MSG_EVT with the stream offset, both addresses, the kind and the parameters is appended, n bytes
are dropped from rx, the cursor advances by n, and every other part of the state (the OUT buffers, tx, the
connection, responses, inputs, configuration) is as it was. That a message row runs as one pass of POLL over its
frame is the model's choice (log entries 4 and 10). -/
def Obligations.ReplyMessagesAreDelivered : Prop :=
  ∀ h : Header, h.wf = true →
      (∀ (value : Byte), fieldWf value = true → Delivers (.respByte h value) 4 h .respByte (.oneByte value)) ∧
      (∀ (value : Nibble), Delivers (.respP h value) 4 h .respByte (.oneByte (nib 0 value))) ∧
      (∀ (value : Byte), Delivers (.respPQ h value) 5 h .respPQ (.oneByte value)) ∧
      (∀ (value : Half), Delivers (.respPQRS h value) 7 h .respPQRS (.twoByte value)) ∧
      (∀ (panPos : Half) (tiltPos : Half), 
        Delivers (.ptPosResp h panPos tiltPos) 11 h .ptPosResp (.ptPosition 0 0 panPos tiltPos)) ∧
      (∀ (socket : Nibble), Delivers (.ack h socket) 3 h .ack (.socket socket)) ∧
      (∀ (socket : Nibble), Delivers (.completion h socket) 3 h .completion (.socket socket)) ∧
      (∀ (socket : Nibble) (code : Byte), fieldWf code = true → 
        Delivers (.error h socket code) 4 h .error (.errorReply socket code)) ∧
      Delivers (.camnumQuery h) 4 h .camnumQuery .none ∧
      (∀ index : Nibble, index ≠ 1 → Delivers (.camnumReply h index) 4 h .camnumReply (.cameraNumber index)) ∧
      Delivers (.camnumReply h 1) 4 h .camnumQuery .none

/-- spec/45_msg_ptz_lens.md; spec/30_encoding.md section 5, shadowed encodings; spec/70_reset_and_hazards.md section
1, POLL. In every state configured with REF_REGISTRY with the connection open, each of the messages PT_POS_INQ
to MENU_MODE_INQ with a header other than 0xFF and full-byte fields other than 0xFF is delivered; MENU_MODE with
value 5 as MENU_ENTER and with value 4 as MENU_RETURN, the earlier rows. Delivering a message of n bytes: its
MSG_EVT with the stream offset, both addresses, the kind and the parameters is appended, n bytes are dropped
from rx, the cursor advances by n, and every other part of the state (the OUT buffers, tx, the connection,
responses, inputs, configuration) is as it was. That a message row runs as one pass of POLL over its frame is
the model's choice (log entries 4 and 10). -/
def Obligations.PanTiltLensAndMenuMessagesAreDelivered : Prop :=
  ∀ h : Header, h.wf = true →
      Delivers (.ptPosInq h) 5 h .ptPosInq .none ∧
      Delivers (.zoomStop h) 6 h .zoomStop .none ∧
      Delivers (.zoomTele h) 6 h .zoomTele .none ∧
      Delivers (.zoomWide h) 6 h .zoomWide .none ∧
      (∀ (value : Nibble), Delivers (.zoomTeleVar h value) 6 h .zoomTeleVar (.oneByte (nib 0x0 value))) ∧
      (∀ (value : Nibble), Delivers (.zoomWideVar h value) 6 h .zoomWideVar (.oneByte (nib 0x0 value))) ∧
      Delivers (.focusStop h) 6 h .focusStop .none ∧
      Delivers (.focusFar h) 6 h .focusFar .none ∧
      Delivers (.focusNear h) 6 h .focusNear .none ∧
      (∀ (value : Nibble), Delivers (.focusFarVar h value) 6 h .focusFarVar (.oneByte (nib 0x0 value))) ∧
      (∀ (value : Nibble), Delivers (.focusNearVar h value) 6 h .focusNearVar (.oneByte (nib 0x0 value))) ∧
      (∀ (panSpeed : Byte) (tiltSpeed : Byte) (panDir : Byte) (tiltDir : Byte),
        fieldWf panSpeed = true → fieldWf tiltSpeed = true → fieldWf panDir = true → fieldWf tiltDir = true → 
        Delivers (.ptDrive h panSpeed tiltSpeed panDir tiltDir) 9 h .ptDrive (.ptDrive panSpeed tiltSpeed panDir tiltDir)) ∧
      (∀ (index : Byte), fieldWf index = true → 
        Delivers (.memoryRecall h index) 7 h .memoryRecall (.memory index 0x02)) ∧
      (∀ (index : Byte), fieldWf index = true → Delivers (.memorySet h index) 7 h .memorySet (.memory index 0x01)) ∧
      Delivers (.clear h) 5 h .clear .none ∧
      (∀ (value : Byte), fieldWf value = true → Delivers (.motionSync h value) 6 h .motionSync (.oneByte value)) ∧
      (∀ (value : Byte), fieldWf value = true → Delivers (.presetSpeed h value) 6 h .presetSpeed (.oneByte value)) ∧
      (∀ (panSpeed : Byte) (tiltSpeed : Byte) (panPos : Half) (tiltPos : Half),
        fieldWf panSpeed = true → fieldWf tiltSpeed = true → 
        Delivers (.ptAbs h panSpeed tiltSpeed panPos tiltPos) 15 h .ptAbs (.ptPosition panSpeed tiltSpeed panPos tiltPos)) ∧
      (∀ (panSpeed : Byte) (tiltSpeed : Byte) (panPos : Half) (tiltPos : Half),
        fieldWf panSpeed = true → fieldWf tiltSpeed = true → 
        Delivers (.ptRel h panSpeed tiltSpeed panPos tiltPos) 15 h .ptRel (.ptPosition panSpeed tiltSpeed panPos tiltPos)) ∧
      Delivers (.ptHome h) 5 h .ptHome .none ∧
      Delivers (.ptReset h) 5 h .ptReset .none ∧
      (∀ (socket : Nibble), Delivers (.cancel h socket) 3 h .cancel (.socket socket)) ∧
      Delivers (.menuEnter h) 6 h .menuEnter .none ∧
      Delivers (.menuEnterVariant h) 8 h .menuEnter .none ∧
      Delivers (.menuReturn h) 6 h .menuReturn .none ∧
      (∀ value : Byte, fieldWf value = true → value ≠ 4 → value ≠ 5 →
        Delivers (.menuMode h value) 6 h .menuMode (.oneByte value)) ∧
      Delivers (.menuMode h 4) 6 h .menuReturn .none ∧ Delivers (.menuMode h 5) 6 h .menuEnter .none ∧
      Delivers (.menuModeInq h) 5 h .menuModeInq .none

/-- spec/46_msg_image.md; spec/70_reset_and_hazards.md section 1, POLL. In every state configured with REF_REGISTRY
with the connection open, each of the messages BRIGHT_POS_DIRECT to AWB_SENS_INQ with a header other than 0xFF
and full-byte fields other than 0xFF is delivered. Delivering a message of n bytes: its MSG_EVT with the stream
offset, both addresses, the kind and the parameters is appended, n bytes are dropped from rx, the cursor
advances by n, and every other part of the state (the OUT buffers, tx, the connection, responses, inputs,
configuration) is as it was. That a message row runs as one pass of POLL over its frame is the model's choice
(log entries 4 and 10). -/
def Obligations.ImageMessagesAreDelivered : Prop :=
  ∀ h : Header, h.wf = true →
      (∀ (value : Half), Delivers (.brightPosDirect h value) 9 h .brightPosDirect (.twoByte value)) ∧
      Delivers (.brightPosInq h) 5 h .brightPosInq .none ∧
      (∀ (value : Byte), Delivers (.colorTempDirect h value) 7 h .colorTempDirect (.oneByte value)) ∧
      Delivers (.colorTempInq h) 5 h .colorTempInq .none ∧
      (∀ (value : Nibble), Delivers (.flicker h value) 6 h .flicker (.oneByte (nib 0x0 value))) ∧
      Delivers (.flickerInq h) 5 h .flickerInq .none ∧
      (∀ (value : Nibble), Delivers (.gainLimit h value) 6 h .gainLimit (.oneByte (nib 0x0 value))) ∧
      Delivers (.gainLimitInq h) 5 h .gainLimitInq .none ∧
      (∀ (value : Nibble), Delivers (.wbMode h value) 6 h .wbMode (.oneByte (nib 0x0 value))) ∧
      Delivers (.wbModeInq h) 5 h .wbModeInq .none ∧
      Delivers (.focusAuto h) 6 h .focusAuto .none ∧
      Delivers (.focusManual h) 6 h .focusManual .none ∧
      Delivers (.focusModeInq h) 5 h .focusModeInq .none ∧
      (∀ (value : Byte), fieldWf value = true → Delivers (.aeMode h value) 6 h .aeMode (.oneByte value)) ∧
      Delivers (.aeModeInq h) 5 h .aeModeInq .none ∧
      (∀ (value : Half), Delivers (.apertureDirect h value) 9 h .apertureDirect (.twoByte value)) ∧
      Delivers (.apertureInq h) 5 h .apertureInq .none ∧
      (∀ (value : Half), Delivers (.rgainDirect h value) 9 h .rgainDirect (.twoByte value)) ∧
      Delivers (.rgainInq h) 5 h .rgainInq .none ∧
      (∀ (value : Half), Delivers (.bgainDirect h value) 9 h .bgainDirect (.twoByte value)) ∧
      Delivers (.bgainInq h) 5 h .bgainInq .none ∧
      (∀ (value : Half), Delivers (.zoomDirect h value) 9 h .zoomDirect (.twoByte value)) ∧
      Delivers (.zoomPosInq h) 5 h .zoomPosInq .none ∧
      (∀ (value : Half), Delivers (.focusDirect h value) 9 h .focusDirect (.twoByte value)) ∧
      Delivers (.focusPosInq h) 5 h .focusPosInq .none ∧
      (∀ (value : Half), Delivers (.colorGainDirect h value) 9 h .colorGainDirect (.twoByte value)) ∧
      Delivers (.colorGainInq h) 5 h .colorGainInq .none ∧
      (∀ (value : Half), Delivers (.shutterDirect h value) 9 h .shutterDirect (.twoByte value)) ∧
      Delivers (.shutterInq h) 5 h .shutterInq .none ∧
      (∀ (value : Half), Delivers (.irisDirect h value) 9 h .irisDirect (.twoByte value)) ∧
      Delivers (.irisInq h) 5 h .irisInq .none ∧
      (∀ (value : Half), Delivers (.colorHueDirect h value) 9 h .colorHueDirect (.twoByte value)) ∧
      Delivers (.colorHueInq h) 5 h .colorHueInq .none ∧
      (∀ (value : Byte), fieldWf value = true → Delivers (.lrReverse h value) 6 h .lrReverse (.oneByte value)) ∧
      Delivers (.lrReverseInq h) 5 h .lrReverseInq .none ∧
      (∀ (value : Byte), fieldWf value = true → 
        Delivers (.pictureEffect h value) 6 h .pictureEffect (.oneByte value)) ∧
      Delivers (.pictureEffectInq h) 5 h .pictureEffectInq .none ∧
      (∀ (value : Byte), fieldWf value = true → Delivers (.pictureFlip h value) 6 h .pictureFlip (.oneByte value)) ∧
      Delivers (.pictureFlipInq h) 5 h .pictureFlipInq .none ∧
      (∀ (value : Half), Delivers (.brightnessDirect h value) 9 h .brightnessDirect (.twoByte value)) ∧
      Delivers (.brightnessInq h) 5 h .brightnessInq .none ∧
      (∀ (value : Half), Delivers (.contrastDirect h value) 9 h .contrastDirect (.twoByte value)) ∧
      Delivers (.contrastInq h) 5 h .contrastInq .none ∧
      (∀ (value : Nibble), Delivers (.awbSens h value) 6 h .awbSens (.oneByte (nib 0x0 value))) ∧
      Delivers (.awbSensInq h) 5 h .awbSensInq .none

/-- spec/70_reset_and_hazards.md section 2, a 0xFF inside an encoded payload. In every state configured with
REF_REGISTRY with the connection open, a message with a full-byte field 0xFF runs as the frame that ends at that
byte: RESP_BYTE becomes COMPLETION 0, PT_DRIVE with tilt speed 0xFF becomes PRESET_SPEED, and every other such
message gives an UNKNOWN_EVT with the payload before the field and advances by that frame alone. That a message
row runs as one pass of POLL over its frame is the model's choice (log entries 4 and 10). -/
def Obligations.TerminatorInAFieldEndsTheMessageEarly : Prop :=
  ∀ (s : State) (h : Header), s.refReady → h.wf = true →
      exec (.respByte h 0xFF) s = .next (delivered s 3 ⟨.completion, .socket 0, h.sender, h.receiver⟩) ∧
      (∀ z : Nibble, exec (.error h z 0xFF) s = .next (skipped s 3 h.sender h.receiver [nib 6 z])) ∧
      (∀ v w x : Byte, exec (.ptDrive h 0xFF v w x) s = .next (skipped s 5 h.sender h.receiver [0x01, 0x06, 0x01])) ∧
      (∀ v w x : Byte, fieldWf v = true →
        exec (.ptDrive h v 0xFF w x) s =
          .next (delivered s 6 ⟨.presetSpeed, .oneByte v, h.sender, h.receiver⟩)) ∧
      (∀ v w x : Byte, fieldWf v = true → fieldWf w = true →
        exec (.ptDrive h v w 0xFF x) s = .next (skipped s 7 h.sender h.receiver [0x01, 0x06, 0x01, v, w])) ∧
      (∀ v w x : Byte, fieldWf v = true → fieldWf w = true → fieldWf x = true →
        exec (.ptDrive h v w x 0xFF) s = .next (skipped s 8 h.sender h.receiver [0x01, 0x06, 0x01, v, w, x])) ∧
      exec (.memoryRecall h 0xFF) s = .next (skipped s 6 h.sender h.receiver [0x01, 0x04, 0x3F, 0x02]) ∧
      exec (.memorySet h 0xFF) s = .next (skipped s 6 h.sender h.receiver [0x01, 0x04, 0x3F, 0x01]) ∧
      exec (.motionSync h 0xFF) s = .next (skipped s 5 h.sender h.receiver [0x0A, 0x11, 0x13]) ∧
      exec (.presetSpeed h 0xFF) s = .next (skipped s 5 h.sender h.receiver [0x01, 0x06, 0x01]) ∧
      (∀ (w : Byte) (pan tilt : Half), exec (.ptAbs h 0xFF w pan tilt) s = .next (skipped s 5 h.sender h.receiver [0x01, 0x06, 0x02])) ∧
      (∀ (v : Byte) (pan tilt : Half), fieldWf v = true →
        exec (.ptAbs h v 0xFF pan tilt) s = .next (skipped s 6 h.sender h.receiver [0x01, 0x06, 0x02, v])) ∧
      (∀ (w : Byte) (pan tilt : Half), exec (.ptRel h 0xFF w pan tilt) s = .next (skipped s 5 h.sender h.receiver [0x01, 0x06, 0x03])) ∧
      (∀ (v : Byte) (pan tilt : Half), fieldWf v = true →
        exec (.ptRel h v 0xFF pan tilt) s = .next (skipped s 6 h.sender h.receiver [0x01, 0x06, 0x03, v])) ∧
      exec (.menuMode h 0xFF) s = .next (skipped s 5 h.sender h.receiver [0x01, 0x06, 0x06]) ∧
      exec (.aeMode h 0xFF) s = .next (skipped s 5 h.sender h.receiver [0x01, 0x04, 0x39]) ∧
      exec (.lrReverse h 0xFF) s = .next (skipped s 5 h.sender h.receiver [0x01, 0x04, 0x61]) ∧
      exec (.pictureEffect h 0xFF) s = .next (skipped s 5 h.sender h.receiver [0x01, 0x04, 0x63]) ∧
      exec (.pictureFlip h 0xFF) s = .next (skipped s 5 h.sender h.receiver [0x01, 0x04, 0x66])

/-- spec/70_reset_and_hazards.md section 1, POLL and CLOSE. For every message of the table, with any field values,
in every state with a well-formed configuration. On a closed connection nothing happens but that the POLL ends.
On an open one DECODE of the frame answers CORRUPT, UNKNOWN_MSG or MESSAGE, and then: CORRUPT closes the
connection with CORRUPT_EVT and discards rx; UNKNOWN_MSG emits UNKNOWN_EVT with the payload, MESSAGE emits
MSG_EVT, and both advance by consumed. Nothing else changes. That a message row runs as one pass of POLL over
its frame is the model's choice (log entries 4 and 10). -/
def Obligations.MessageRunsOnePassOfPoll : Prop :=
  ∀ (i : Instr) (s : State), wireBytes i ≠ [] → s.cfg.wf = true →
    (s.conn = .closed → exec i s = .next { s with task := .idle }) ∧
    (s.conn = .opened →
      (∃ d, vcuDecode s.cfg (wireBytes i) = .ok d ∧ d.status ≠ .incomplete) ∧
      (∀ why, vcuDecode s.cfg (wireBytes i) = .ok (.bad why) →
        exec i s = .next (closedWith s (.corrupt s.cur why))) ∧
      (∀ n snd rcv, vcuDecode s.cfg (wireBytes i) = .ok (.noRow n snd rcv) →
        exec i s = .next (skipped s n.toNat snd rcv (((wireBytes i).drop 1).take (n.toNat - 2)))) ∧
      (∀ n snd rcv k prm, vcuDecode s.cfg (wireBytes i) = .ok (.hit n snd rcv k prm) →
        exec i s = .next (delivered s n.toNat ⟨k, prm, snd, rcv⟩)))

/-- spec/70_reset_and_hazards.md section 2, header 0xFF and resynchronisation; spec/40_framer.md section 2, header
0xFF. For every message of the table whose header byte is 0xFF (marker 1, sender 7, receiver 15), in every state
with a well-formed configuration and an open connection: a CORRUPT_EVT with TERM_AT_ZERO at the cursor is
emitted, the connection is closed, rx is discarded, the POLL ends, and nothing else changes. That a message row
runs as one pass of POLL over its frame is the model's choice (log entries 4 and 10). -/
def Obligations.HeaderTerminatorClosesTheConnection : Prop :=
  ∀ (i : Instr) (s : State), (wireBytes i).head? = some 0xFF → s.cfg.wf = true → s.conn = .opened →
    exec i s = .next (closedWith s (.corrupt s.cur .termAtZero))

/-- spec/00_scope.md section 2; spec/42_param_codecs.md section 4; spec/70_reset_and_hazards.md section 1. For every
message of the table and every state, if it answers a next state then the OUT buffers (every byte of each), tx,
the configuration, the inputs and the responses are as they were, at most one event was appended, and the cursor
did not go back. That a message row runs as one pass of POLL over its frame is the model's choice (log entries 4
and 10). -/
def Obligations.MessageLeavesTheRestOfTheStateAlone : Prop :=
  ∀ (i : Instr) (s t : State), wireBytes i ≠ [] → exec i s = .next t →
    t.cfg = s.cfg ∧ t.outs = s.outs ∧ (∀ n j, (t.outs.getD n []).read j = (s.outs.getD n []).read j) ∧
    t.tx = s.tx ∧ t.inputs = s.inputs ∧ t.responses = s.responses ∧
    (t.events = s.events ∨ ∃ e, t.events = s.events ++ [e]) ∧ s.cur ≤ t.cur

/-- spec/10_state.md sections 1 and 6; spec/20_memory.md sections 1 and 6; spec/60_exceptions.md section 7, multiple
agents. For every request operation and every state, if it answers a next state then that state is the old one
with exactly one more response and, for SERIALIZE and ENCODE only, exactly one more OUT buffer, that request's
own; the buffers of all earlier requests stay. In that buffer every byte at |payload| + 2 and above (SERIALIZE),
or at the length of the first row of the kind + 2 and above (ENCODE), reads as the caller handed it in; for an
ENCODE of a kind without a row every byte does. The response list, and OUT as an operand that is handed back,
are the model's form of the port (log entries 2 and 6). -/
def Obligations.RequestLeavesTheHarnessAlone : Prop :=
  ∀ (i : Instr) (s t : State), wireBytes i = [] → exec i s = .next t →
    (∃ r own, t = { s with outs := s.outs ++ own, responses := s.responses ++ [r] }) ∧
    ((∀ a b p out, i ≠ .serialize a b p out) → (∀ k p a b out, i ≠ .encode k p a b out) → t.outs = s.outs) ∧
    (∀ a b p out, i = .serialize a b p out → ∃ m, t.outs = s.outs ++ [m] ∧ KeepsOutFrom (p.length + 2) out m) ∧
    (∀ k p a b out, i = .encode k p a b out →
      ∃ m, t.outs = s.outs ++ [m] ∧
        ((∀ e ∈ s.cfg.rows, e.kind ≠ k) → KeepsOutFrom 0 out m) ∧
        (∀ pre e, FirstOfKind s.cfg k pre e → KeepsOutFrom (e.length + 2) out m))

/-- spec/10_state.md section 6; spec/20_memory.md section 6; spec/60_exceptions.md section 7, multiple agents. For
every request operation and every two states with the same configuration, whatever else they hold (OUT buffers
of other requests, earlier responses, the harness): if both answer a next state, both append the same response
and the same OUT buffer, or none; and one answers a next state exactly when the other does. The response list,
and OUT as an operand that is handed back, are the model's form of the port (log entries 2 and 6). -/
def Obligations.ResponsesDoNotDependOnHistory : Prop :=
  ∀ (i : Instr) (s s' : State), wireBytes i = [] → s.cfg = s'.cfg →
    (∀ t t', exec i s = .next t → exec i s' = .next t' →
      ∃ r own, t.responses = s.responses ++ [r] ∧ t'.responses = s'.responses ++ [r] ∧
        t.outs = s.outs ++ own ∧ t'.outs = s'.outs ++ own) ∧
    ((∃ t, exec i s = .next t) ↔ ∃ t', exec i s' = .next t')

/-- spec/70_reset_and_hazards.md section 1; spec/60_exceptions.md section 5. With a well-formed configuration and no
POLL under way: with no input the step changes nothing. RECV on an open connection appends the bytes to rx and
starts its POLL; POLL on an open connection starts a POLL; on a closed one both do nothing. OPEN sets rx and tx
empty, the cursor 0 and the connection OPEN (that it also empties the events is the model's reading, log entry
3). CLOSE closes the connection and discards rx. Each takes itself from the inputs. The input list, the steps a
harness step takes and the step with no input are the model's choices (log entries 4, 5 and 12). That OPEN puts
a new harness in this state's place, on a closed or a still open connection too, and keeps OUT buffers and
responses, is log entry 9: by R280 no connection reopens. -/
def Obligations.HarnessStepsBeginAsDescribed : Prop :=
  ∀ (s : State) (rest : List Input), s.cfg.wf = true → s.task = .idle →
    (s.inputs = [] → step s = .next s) ∧
    (∀ bytes, s.inputs = .recv bytes :: rest →
      (s.conn = .opened →
        step s = .next { s with inputs := rest, rx := s.rx ++ bytes, task := .receiving }) ∧
      (s.conn = .closed → step s = .next { s with inputs := rest })) ∧
    (s.inputs = .poll :: rest →
      (s.conn = .opened → step s = .next { s with inputs := rest, task := .polling }) ∧
      (s.conn = .closed → step s = .next { s with inputs := rest })) ∧
    (s.inputs = .openConn :: rest →
      step s = .next { s with inputs := rest, rx := [], cur := 0, tx := [], conn := .opened, events := [] }) ∧
    (s.inputs = .closeConn :: rest → step s = .next { s with inputs := rest, conn := .closed, rx := [] })

/-- spec/70_reset_and_hazards.md section 1, RECV and POLL. With a well-formed configuration and a POLL under way,
one step: on a closed connection the POLL ends. On an open one: if rx holds no 0xFF the POLL ends, with nothing
changed in a POLL of its own or while |rx| is within RX_MAX, and in a RECV with |rx| above RX_MAX with
OVERFLOW_EVT, the connection closed and rx discarded. CORRUPT closes with CORRUPT_EVT; UNKNOWN_MSG emits
UNKNOWN_EVT with its payload and MESSAGE emits MSG_EVT, and both drop consumed bytes and go on. One frame a step
is the model's choice (log entry 4). -/
def Obligations.PollLoopFollowsDecode : Prop :=
  ∀ s : State, s.cfg.wf = true → s.task ≠ .idle →
    (s.conn = .closed → step s = .next { s with task := .idle }) ∧
    (s.conn = .opened →
      (0xFF ∉ s.rx →
        (s.task = .polling → step s = .next { s with task := .idle }) ∧
        (s.task = .receiving → (∀ n, s.cfg.rxMax = some n → s.rx.length ≤ n) →
          step s = .next { s with task := .idle }) ∧
        (∀ n, s.task = .receiving → s.cfg.rxMax = some n → n < s.rx.length →
          step s = .next (closedWith s (.overflow s.cur)))) ∧
      (∀ why, vcuDecode s.cfg s.rx = .ok (.bad why) → step s = .next (closedWith s (.corrupt s.cur why))) ∧
      (∀ n snd rcv, vcuDecode s.cfg s.rx = .ok (.noRow n snd rcv) →
        step s = .next (skipped s n.toNat snd rcv ((s.rx.drop 1).take (n.toNat - 2)))) ∧
      (∀ n snd rcv k prm, vcuDecode s.cfg s.rx = .ok (.hit n snd rcv k prm) →
        step s = .next (delivered s n.toNat ⟨k, prm, snd, rcv⟩)))

/-- spec/70_reset_and_hazards.md section 1, POLL; spec/43_entry_points.md section 1. For every state, if rx begins
with the frame of an instruction of the table, then that instruction, run on its own bytes, does exactly what
one pass of POLL does with the whole of rx, whatever the configured registry: bytes after the frame play no
part. That a message row runs as one pass of POLL over its frame is the model's choice (log entries 4 and 10). -/
def Obligations.RunningADecodedMessageIsAPassOverRx : Prop :=
  ∀ (s : State) (i : Instr), decodeWire s.rx = .ok i → exec i s = pollOnce s.rx s

/-- spec/70_reset_and_hazards.md section 1, SEND. With a well-formed configuration, no POLL under way and SEND
taken: on a closed connection nothing happens. On an open one, with the answer of ENCODE for a capacity of
MAX_FRAME, whatever its OUT holds: on E_OK its bytes are appended to tx and SENT_EVT with their number is
emitted; on an error tx is unchanged and ENC_ERR_EVT with that error is emitted, which is never ERR_CAPACITY.
Nothing else changes but the input list. That SEND leaves the callers' OUT and the response list alone is the
model's choice (log entries 14 and 15). -/
def Obligations.SendAppendsTheEncodedFrame : Prop :=
  ∀ (s : State) (k : Kind) (prm : Params) (snd rcv : Byte) (rest : List Input),
    s.cfg.wf = true → s.task = .idle → s.inputs = .send k prm snd rcv :: rest →
    (s.conn = .closed → step s = .next { s with inputs := rest }) ∧
    (s.conn = .opened → ∀ held t, exec (.encode k prm snd rcv ⟨s.cfg.maxFrame, held⟩) s = .next t →
      (∀ n bytes, t.responses = s.responses ++ [.encode ⟨.ok, n, some bytes⟩] →
        step s = .next { s with inputs := rest, tx := s.tx ++ bytes, events := s.events ++ [.sent n] }) ∧
      (∀ e, t.responses = s.responses ++ [.encode ⟨.error e, 0, none⟩] →
        e ≠ .capacity ∧
        step s = .next { s with inputs := rest, events := s.events ++ [.encodeError (.error e)] }))

/-- spec/00_scope.md section 1, one request one step; spec/70_reset_and_hazards.md section 1. While a POLL is under
way and rx begins with the frame of instruction i, step is exec of i on the state as it is. With no POLL under
way and a request at the head of the inputs that decodes to i, step is exec of i on the state with that request
taken from the inputs. Where a step finds its instruction is the model's choice (log entries 4, 5 and 10). -/
def Obligations.StepRunsTheDecodedInstruction : Prop :=
  (∀ (s : State) (i : Instr), s.task ≠ .idle → decodeWire s.rx = .ok i → step s = exec i s) ∧
  (∀ (s : State) (i : Instr) (r : PortRequest) (rest : List Input), s.task = .idle →
    s.inputs = .request r :: rest → decodePort r = .ok i → step s = exec i { s with inputs := rest })

/-- spec/40_framer.md section 3, back-to-back frames; spec/70_reset_and_hazards.md section 1. From every state that
meets the invariant, rests, and has an unbounded RX_MAX: for every list of chunks of bytes, the run that
receives the chunks one by one and the run that receives their concatenation at once both come to rest, and in
the same end state (rx, cursor, connection, tx, events). The steps of the runs are the model's (log entries 4
and 5); the end states are the spec's. -/
def Obligations.FragmentationDoesNotMatter : Prop :=
  ∀ (s : State) (chunks : List (List Byte)), s.Inv → s.task = .idle → s.cfg.rxMax = none →
    ∃ e : EndState, RunsTo { s with inputs := [.recv chunks.flatten] } e ∧
      RunsTo { s with inputs := chunks.map .recv } e

/-- spec/40_framer.md section 3, back-to-back frames; spec/70_reset_and_hazards.md section 1. From every resting
state configured with REF_REGISTRY, connection open and rx empty: one RECV of the concatenated frames of any
list of well-formed messages runs to rest with rx empty, the cursor advanced by their total length, the
connection open, tx unchanged, and exactly the MSG_EVTs of those messages appended in order, each with the
stream offset of its first byte. The steps of the run are the model's (log entries 4 and 5); the end state is
the spec's. -/
def Obligations.BackToBackMessagesAreAllDelivered : Prop :=
  ∀ (s : State) (msgs : List Instr), s.refReady → s.task = .idle → s.rx = [] →
    (∀ i ∈ msgs, i.wf = true ∧ wireBytes i ≠ []) →
    RunsTo { s with inputs := [.recv (msgs.flatMap wireBytes)] }
      ⟨[], s.cur + (msgs.flatMap wireBytes).length, .opened, s.tx, s.events ++ eventsFrom s.cur msgs⟩

/-- spec/30_encoding.md; spec/44_msg_replies.md; spec/45_msg_ptz_lens.md; spec/46_msg_image.md. For every well-
formed instruction of the whole table, with every operand at every value its encoding admits, decode of encode
is the instruction itself; for the payloads an earlier row takes (RESP_P, CAMNUM_REPLY 1, MENU_MODE 4 and 5) it
is the earlier instruction with the same bytes. The marker bit in the instruction and the record form of a
request are the model's choices (log entries 2, 7 and 13). -/
def Obligations.DecodeUndoesEncode : Prop :=
  ∀ i : Instr, i.wf = true → decode (encode i) = some (shadowedBy i)

/-- spec/30_encoding.md sections 1 to 5. If a byte stream decodes to an instruction, then that instruction is a
well-formed message and the stream is exactly its encoding followed by bytes that play no part. That no bit is
dropped rests on the model's choice to keep header bit 7, which the spec's decoder ignores, in the instruction
(log entry 13). -/
def Obligations.DecodedFrameIsTheEncoding : Prop :=
  ∀ (buf : List Byte) (i : Instr), decodeWire buf = .ok i →
    i.wf = true ∧ ∃ rest, buf = wireBytes i ++ rest

/-- spec/44_msg_replies.md; spec/45_msg_ptz_lens.md; spec/46_msg_image.md; spec/30_encoding.md section 8. The frames
90 41 FF, 81 01 04 07 25 FF, 81 01 06 02 18 14 00 01 02 03 04 05 06 07 FF and 81 09 04 47 FF decode to ACK 1,
ZOOM_TELE_VAR 5, PT_ABS with its four fields, and ZOOM_POS_INQ; the request with op 3 and kind 6 decodes to
TEMPLATE of ACK. -/
def Obligations.WrittenOutFramesDecode : Prop :=
  decode (.wire [0x90, 0x41, 0xFF]) = some (.ack ⟨1, 1, 0⟩ 1) ∧
  decode (.wire [0x81, 0x01, 0x04, 0x07, 0x25, 0xFF]) = some (.zoomTeleVar ⟨1, 0, 1⟩ 5) ∧
  decode (.wire [0x81, 0x01, 0x06, 0x02, 0x18, 0x14, 0x00, 0x01, 0x02, 0x03, 0x04, 0x05, 0x06, 0x07, 0xFF]) =
    some (.ptAbs ⟨1, 0, 1⟩ 0x18 0x14 0x0123 0x4567) ∧
  decode (.wire [0x81, 0x09, 0x04, 0x47, 0xFF]) = some (.zoomPosInq ⟨1, 0, 1⟩) ∧
  decode (.port { op := 3, kind := 6 }) = some (.template .ack)

/-- spec/10_state.md section 4. INCOMPLETE, CORRUPT, UNKNOWN_MSG and MESSAGE are 0 to 3; X_INCOMPLETE, X_CORRUPT and
X_FRAME 0 to 2; C_UNKNOWN and C_MATCH 0 and 1; TERM_AT_ZERO and OVER_CAPACITY 0 and 1; E_OK and the five errors
0 to 5. -/
def Obligations.StatusCodesAreThoseOfTheTable : Prop :=
  [DStatus.incomplete, .corrupt, .unknownMsg, .message].map DStatus.code = [0, 1, 2, 3] ∧
  [XStatus.incomplete, .corrupt, .frame].map XStatus.code = [0, 1, 2] ∧
  [CStatus.unknown, .matched].map CStatus.code = [0, 1] ∧
  [CorruptReason.termAtZero, .overCapacity].map CorruptReason.code = [0, 1] ∧
  [EStatus.ok, .error .unknownKind, .error .paramShape, .error .paramRange, .error .addressRange,
    .error .capacity].map EStatus.code = [0, 1, 2, 3, 4, 5]

/-- spec/60_exceptions.md section 1, error response; spec/10_state.md section 3, encode response; spec/20_memory.md
section 4, no partial writes. For every request operation and every state, if it answers an error E then the
response has status E, length 0 and no other field that holds a value: no bytes (SERIALIZE, ENCODE), no
definition and no row (TEMPLATE), no parameters and no work buffer (CODEC); and in the OUT buffer of a SERIALIZE
or an ENCODE every byte reads as the caller handed it in. EXTRACT, CLASSIFY and DECODE raise none. That TEMPLATE
and CODEC have a length on an error is deduced from R256, since R101 lists none (log entry 19). -/
def Obligations.RaisedErrorAnswersStatusAndLengthZero : Prop :=
  ∀ (i : Instr) (s t : State) (r : Response) (e : EncError), wireBytes i = [] → exec i s = .next t →
    t.responses = s.responses ++ [r] → r.raised? = some e →
    (∃ k, i = .template k ∧ r = .template ⟨.error e, some 0, none, none⟩ ∧ t.outs = s.outs) ∨
    (∃ dir c work prm, i = .codec dir c work prm ∧ r = .codec ⟨.error e, some 0, none, none⟩ ∧ t.outs = s.outs) ∨
    (∃ snd rcv p out m, i = .serialize snd rcv p out ∧ r = .serialize ⟨.error e, 0, none⟩ ∧
      t.outs = s.outs ++ [m] ∧ KeepsOutFrom 0 out m) ∨
    (∃ k prm snd rcv out m, i = .encode k prm snd rcv out ∧
      r = .encode ⟨.error e, 0, none⟩ ∧ t.outs = s.outs ++ [m] ∧ KeepsOutFrom 0 out m)
end

