-- ==== Sys2Proof/Laws/Bytes.lean ====
section
/-! SUPPORT. Facts about bytes, nibbles, digits and headers. Each holds by trying every value of a byte or of two
nibbles. -/

namespace Sys2Proof

theorem nib_ne_terminator : ∀ hi lo : Nibble, hi ≠ 15 → nib hi lo ≠ terminator := by decide

@[simp] theorem low_nib : ∀ hi lo : Nibble, low (nib hi lo) = lo := by decide

@[simp] theorem ofByte_byte (h : Header) : Header.ofByte h.byte = h := by
  have all : ∀ (m : BitVec 1) (s : BitVec 3) (r : BitVec 4), Header.ofByte (Header.mk m s r).byte = ⟨m, s, r⟩ := by
    decide
  exact all h.marker h.sender h.receiver

@[simp] theorem byte_ofByte : ∀ b : Byte, (Header.ofByte b).byte = b := by decide

theorem header_byte_ne_terminator (h : Header) (hw : h.wf = true) : h.byte ≠ terminator := by
  have all : ∀ (m : BitVec 1) (s : BitVec 3) (r : BitVec 4),
      (Header.mk m s r).wf = true → (Header.mk m s r).byte ≠ terminator := by decide
  exact all h.marker h.sender h.receiver hw

theorem header_byte_eq_terminator (h : Header) (hw : h.wf = false) : h.byte = terminator := by
  have all : ∀ (m : BitVec 1) (s : BitVec 3) (r : BitVec 4),
      (Header.mk m s r).wf = false → (Header.mk m s r).byte = terminator := by decide
  exact all h.marker h.sender h.receiver hw

theorem fieldWf_iff (b : Byte) : fieldWf b = true ↔ b ≠ terminator := by simp [fieldWf]

theorem terminator_not_mem_digits2 (v : Byte) : terminator ∉ digits2 v := by
  simp only [digits2, List.mem_cons, List.not_mem_nil, or_false, not_or]
  exact ⟨(nib_ne_terminator _ _ (by decide)).symm, (nib_ne_terminator _ _ (by decide)).symm⟩

theorem terminator_not_mem_digits4 (v : Half) : terminator ∉ digits4 v := by
  simp only [digits4, List.mem_cons, List.not_mem_nil, or_false, not_or]
  exact ⟨(nib_ne_terminator _ _ (by decide)).symm, (nib_ne_terminator _ _ (by decide)).symm,
    (nib_ne_terminator _ _ (by decide)).symm, (nib_ne_terminator _ _ (by decide)).symm⟩

@[simp] theorem digits2_length (v : Byte) : (digits2 v).length = 2 := rfl

@[simp] theorem digits4_length (v : Half) : (digits4 v).length = 4 := rfl

/-- R83: the two digits of a byte give it back. -/
theorem join_digits2 : ∀ v : Byte, (v.extractLsb' 4 4 : Nibble) ++ (v.extractLsb' 0 4 : Nibble) = v := by decide

/-- R84: the four digits of a 16-bit value give it back. -/
theorem quad_digits4 (v : Half) :
    quad (nib 0 (v.extractLsb' 12 4)) (nib 0 (v.extractLsb' 8 4)) (nib 0 (v.extractLsb' 4 4))
      (nib 0 (v.extractLsb' 0 4)) = v := by
  simp only [quad, low_nib]
  apply BitVec.eq_of_getLsbD_eq
  intro i hi
  simp only [BitVec.getLsbD_append, BitVec.getLsbD_extractLsb']
  split
  · simp_all
  · split
    · have e : 4 + (i - 4) = i := by omega
      rw [e]; simp; omega
    · split
      · have e : 8 + (i - 4 - 4) = i := by omega
        rw [e]; simp; omega
      · have e : 12 + (i - 4 - 4 - 4) = i := by omega
        rw [e]; simp; omega

end Sys2Proof
end

