-- ==== Sys2Proof/Laws/Codec.lean ====
section
/-! SUPPORT. What the byte accesses, the operand fields and the codecs can do. -/

namespace Sys2Proof.Machine

/-! ## Byte accesses -/

theorem memRead_ok {b : List Byte} {i : Nat} (h : i < b.length) : memRead b i = .ok b[i] := by
  simp [memRead, List.getElem?_eq_getElem h]

theorem memRead_some {b : List Byte} {i : Nat} {v : Byte} (h : b[i]? = some v) : memRead b i = .ok v := by
  simp [memRead, h]

theorem memWrite_ok {b : List Byte} {i : Nat} (v : Byte) (h : i < b.length) :
    memWrite b i v = .ok (b.set i v) := by
  simp [memWrite, h]

theorem orDigit_ok {b : List Byte} {i : Nat} (d : Nibble) (h : i < b.length) :
    orDigit b i d = .ok (b.set i (b[i] ||| nib 0 d)) := by
  simp [orDigit, memRead_ok h, memWrite_ok _ h, bind, Except.bind]

theorem addByte_ok {b : List Byte} {i : Nat} (v : Byte) (h : i < b.length) :
    addByte b i v = .ok (b.set i (b[i] + v)) := by
  simp [addByte, memRead_ok h, memWrite_ok _ h, bind, Except.bind]

theorem readDigit_ok {b : List Byte} {i : Nat} (h : i < b.length) :
    readDigit b i = .ok (nib 0 (low b[i])) := by
  simp [readDigit, memRead_ok h, bind, Except.bind]

theorem unpack2_ok {b : List Byte} {o : Nat} (h : o + 1 < b.length) :
    unpack2 b o = .ok (low (b[o]'(by omega)) ++ low b[o + 1]) := by
  simp [unpack2, memRead_ok (show o < b.length by omega), memRead_ok h, bind, Except.bind]

theorem unpack4_ok {b : List Byte} {o : Nat} (h : o + 3 < b.length) :
    unpack4 b o = .ok (quad (b[o]'(by omega)) (b[o + 1]'(by omega)) (b[o + 2]'(by omega)) b[o + 3]) := by
  simp [unpack4, memRead_ok (show o < b.length by omega), memRead_ok (show o + 1 < b.length by omega),
    memRead_ok (show o + 2 < b.length by omega), memRead_ok h, bind, Except.bind]

/-! ## Lengths -/

/-- A sequence of in-range writes succeeds and keeps the length. -/
def Writes (b : List Byte) (r : Except Fault (List Byte)) : Prop := ∃ b', r = .ok b' ∧ b'.length = b.length

theorem writes_memWrite {b : List Byte} {i : Nat} (v : Byte) (h : i < b.length) : Writes b (memWrite b i v) :=
  ⟨_, memWrite_ok v h, by simp⟩

theorem writes_orDigit {b : List Byte} {i : Nat} (d : Nibble) (h : i < b.length) : Writes b (orDigit b i d) :=
  ⟨_, orDigit_ok d h, by simp⟩

theorem writes_addByte {b : List Byte} {i : Nat} (v : Byte) (h : i < b.length) : Writes b (addByte b i v) :=
  ⟨_, addByte_ok v h, by simp⟩

theorem writes_bind {b : List Byte} {r : Except Fault (List Byte)} {f : List Byte → Except Fault (List Byte)}
    (hr : Writes b r) (hf : ∀ b', b'.length = b.length → Writes b' (f b')) : Writes b (r >>= f) := by
  obtain ⟨b', rfl, hl⟩ := hr
  obtain ⟨b'', hf', hl'⟩ := hf b' hl
  exact ⟨b'', hf', hl'.trans hl⟩

theorem writes_pack2 {b : List Byte} {o : Nat} (v : Byte) (h : o + 1 < b.length) : Writes b (pack2 b o v) :=
  writes_bind (writes_orDigit _ (by omega)) fun _ hl => writes_orDigit _ (by omega)

theorem writes_pack4 {b : List Byte} {o : Nat} (v : Half) (h : o + 3 < b.length) : Writes b (pack4 b o v) :=
  writes_bind (writes_orDigit _ (by omega)) fun _ h1 =>
  writes_bind (writes_orDigit _ (by omega)) fun _ h2 =>
  writes_bind (writes_orDigit _ (by omega)) fun _ h3 => writes_orDigit _ (by omega)

/-- R155: the decode direction succeeds on every payload that holds the codec's fields. -/
theorem codecDecode_total (c : CodecId) (b : List Byte) (h : c.minLen ≤ b.length) :
    ∃ prm, codecDecode c b = .ok prm := by
  cases c <;> simp only [CodecId.minLen] at h <;>
    simp (disch := omega) [codecDecode, memRead_ok, readDigit_ok, unpack2_ok, unpack4_ok, bind, Except.bind]

/-- R155: the writes of the encode direction succeed on every buffer that holds the codec's fields, and keep its
length. -/
theorem codecWrite_total (c : CodecId) (b : List Byte) (prm : Params) (h : c.minLen ≤ b.length) :
    Writes b (codecWrite c b prm) := by
  have stay : Writes b (.ok b) := ⟨b, rfl, rfl⟩
  cases c <;> simp only [CodecId.minLen] at h <;> cases prm <;> simp only [codecWrite] <;> try exact stay
  · exact writes_memWrite _ (by omega)
  · exact writes_memWrite _ (by omega)
  · exact writes_orDigit _ (by omega)
  · exact writes_orDigit _ (by omega)
  · exact writes_pack2 _ (by omega)
  · exact writes_pack2 _ (by omega)
  · exact writes_pack4 _ (by omega)
  · exact writes_pack4 _ (by omega)
  · exact writes_bind (writes_memWrite _ (by omega)) fun _ h1 =>
      writes_bind (writes_memWrite _ (by omega)) fun _ h2 =>
      writes_bind (writes_pack4 _ (by omega)) fun _ h3 => writes_pack4 _ (by omega)
  · exact writes_bind (writes_pack4 _ (by omega)) fun _ h1 => writes_pack4 _ (by omega)
  · exact writes_bind (writes_memWrite _ (by omega)) fun _ h1 =>
      writes_bind (writes_memWrite _ (by omega)) fun _ h2 =>
      writes_bind (writes_memWrite _ (by omega)) fun _ h3 => writes_memWrite _ (by omega)
  · exact writes_addByte _ (by omega)
  · exact writes_bind (writes_addByte _ (by omega)) fun _ h1 => writes_addByte _ (by omega)
  · exact writes_addByte _ (by omega)
  · exact writes_memWrite _ (by omega)

/-- What the encode direction can do, on a buffer that holds the codec's fields: it raises the error of its check,
or it writes and keeps the length. -/
theorem codecEncode_cases (c : CodecId) (b : List Byte) (prm : Params) (h : c.minLen ≤ b.length) :
    (∃ e, codecCheck c prm = .error e ∧ codecEncode c b prm = .error (.raised e)) ∨
    (∃ b', codecCheck c prm = .ok () ∧ codecWrite c b prm = .ok b' ∧ codecEncode c b prm = .ok b' ∧
      b'.length = b.length) := by
  obtain ⟨b', hb, hl⟩ := codecWrite_total c b prm h
  simp only [codecEncode]
  cases hc : codecCheck c prm with
  | error e => exact .inl ⟨e, rfl, rfl⟩
  | ok u => exact .inr ⟨b', rfl, hb, by simp [hb], hl⟩

/-- R154: the errors of the check. -/
theorem codecCheck_error {c : CodecId} {prm : Params} {e : EncError} (h : codecCheck c prm = .error e) :
    e = .paramShape ∨ e = .paramRange := by
  simp only [codecCheck] at h
  split at h
  · cases h
  · split at h
    · cases h; exact .inl rfl
    · split at h
      · split at h
        · cases h; exact .inr rfl
        · cases h
      · split at h
        · cases h; exact .inr rfl
        · cases h
      · cases h

end Sys2Proof.Machine
end

