-- ==== Sys2Proof/Laws/Memory.lean ====
section
/-! SUPPORT. The byte space OUT: a read after a write, the canonical form, and what a sequence of writes and of
reads can do. -/

namespace Sys2Proof.Machine

theorem Memory.read_write_same (m : Memory) (i : Nat) (v : Byte) : (m.write i v).read i = some v := by
  induction m with
  | nil => simp [Memory.write, Memory.read]
  | cons c rest ih =>
    simp only [Memory.write]
    split
    · simp [Memory.read]
    · split
      · simp [Memory.read]
      · next h =>
        have h' : ¬c.1 = i := fun e => h e.symm
        simp [Memory.read, ih, h']

theorem Memory.read_write_other (m : Memory) (i j : Nat) (v : Byte) (h : j ≠ i) :
    (m.write i v).read j = m.read j := by
  have h' : i ≠ j := fun e => h e.symm
  induction m with
  | nil => simp [Memory.write, Memory.read, h']
  | cons c rest ih =>
    simp only [Memory.write]
    split
    · simp [Memory.read, h']
    · split
      · next e => simp [Memory.read, ← e, h']
      · simp [Memory.read, ih]

theorem Memory.read_write (m : Memory) (i j : Nat) (v : Byte) :
    (m.write i v).read j = if j = i then some v else m.read j := by
  split
  · next e => rw [e]; exact m.read_write_same i v
  · next e => exact m.read_write_other i j v e

theorem Memory.wf_iff (m : Memory) : Memory.wf m = true ↔ m.Pairwise fun a b => a.1 < b.1 := by
  simp [Memory.wf]

/-- A written cell is the new one or an old one. -/
theorem Memory.mem_write (m : Memory) (i : Nat) (v : Byte) (c : Host.Cell) (h : c ∈ m.write i v) :
    c = (i, v) ∨ c ∈ m := by
  induction m with
  | nil => simpa [Memory.write] using h
  | cons d rest ih =>
    simp only [Memory.write] at h
    split at h
    · simpa using h
    · split at h
      · rcases List.mem_cons.mp h with h | h
        · exact .inl h
        · exact .inr (List.mem_cons_of_mem _ h)
      · rcases List.mem_cons.mp h with h | h
        · exact .inr (h ▸ List.mem_cons_self)
        · exact (ih h).imp id (List.mem_cons_of_mem _)

/-- A write keeps the canonical form. -/
theorem Memory.wf_write (m : Memory) (i : Nat) (v : Byte) (h : Memory.wf m = true) :
    Memory.wf (m.write i v) = true := by
  rw [Memory.wf_iff] at *
  induction m with
  | nil => simp [Memory.write]
  | cons c rest ih =>
    obtain ⟨hc, hr⟩ := List.pairwise_cons.mp h
    simp only [Memory.write]
    split
    · next lt =>
      refine List.pairwise_cons.mpr ⟨fun d hd => ?_, h⟩
      rcases List.mem_cons.mp hd with rfl | hd
      · exact lt
      · exact Nat.lt_trans lt (hc d hd)
    · split
      · next e =>
        refine List.pairwise_cons.mpr ⟨fun d hd => ?_, hr⟩
        show i < d.1
        rw [e]; exact hc d hd
      · refine List.pairwise_cons.mpr ⟨fun d hd => ?_, ih hr⟩
        rcases Memory.mem_write rest i v d hd with rfl | hd
        · show c.1 < i
          omega
        · exact hc d hd

/-- The byte a sequence of cells holds at an index. -/
theorem cellsFrom_read (i j : Nat) (bs : List Byte) :
    Memory.read (cellsFrom i bs) j = if i ≤ j then bs[j - i]? else none := by
  induction bs generalizing i with
  | nil => simp [cellsFrom, Memory.read]
  | cons b bs ih =>
    simp only [cellsFrom, Memory.read, ih]
    by_cases h : i = j
    · subst h; simp
    · by_cases hl : i + 1 ≤ j
      · obtain ⟨k, rfl⟩ : ∃ k, j = i + 1 + k := ⟨j - (i + 1), by omega⟩
        simp [show ¬ i = i + 1 + k by omega, show i + 1 + k - i = k + 1 by omega, show i ≤ i + 1 + k by omega]
      · simp [h, hl, show ¬ i ≤ j by omega]

theorem cellsFrom_le (i : Nat) (bs : List Byte) : ∀ c ∈ cellsFrom i bs, i ≤ c.1 := by
  induction bs generalizing i with
  | nil => simp [cellsFrom]
  | cons b bs ih =>
    intro c hc
    rcases List.mem_cons.mp hc with rfl | hc
    · exact Nat.le_refl i
    · exact Nat.le_of_succ_le (ih (i + 1) c hc)

theorem cellsFrom_wf (i : Nat) (bs : List Byte) : Memory.wf (cellsFrom i bs) = true := by
  rw [Memory.wf_iff]
  induction bs generalizing i with
  | nil => simp [cellsFrom]
  | cons b bs ih => exact List.pairwise_cons.mpr ⟨fun c hc => cellsFrom_le (i + 1) bs c hc, ih (i + 1)⟩

/-- What a request's OUT buffer holds as its caller hands it in. -/
theorem callerOut_read (out : OutBuffer) (j : Nat) :
    (callerOut out).read j = (out.held.take out.capacity)[j]? := by
  rw [callerOut, cellsFrom_read, if_pos (Nat.zero_le j), Nat.sub_zero]

theorem callerOut_wf (out : OutBuffer) : Memory.wf (callerOut out) = true :=
  cellsFrom_wf 0 _

/-- What a write into OUT can do. -/
theorem outWrite_ok {cap : Nat} {m m' : Memory} {i : Nat} {v : Byte} (h : outWrite cap m i v = .ok m') :
    i < cap ∧ m' = m.write i v := by
  simp only [outWrite] at h
  split at h
  · next lt => exact ⟨lt, by cases h; rfl⟩
  · cases h

/-- A sequence of writes that fits: the bytes stand where they were written, every other byte is as it was, and
the canonical form is kept. -/
theorem outWriteAll_fits (cap : Nat) (m : Memory) (i : Nat) (bs : List Byte) (h : i + bs.length ≤ cap) :
    ∃ m', outWriteAll cap m i bs = .ok m' ∧
      (∀ j, m'.read j = if i ≤ j ∧ j < i + bs.length then bs[j - i]? else m.read j) ∧
      (Memory.wf m = true → Memory.wf m' = true) := by
  induction bs generalizing m i with
  | nil => exact ⟨m, rfl, fun j => by simp, id⟩
  | cons b bs ih =>
    simp only [List.length_cons] at h
    obtain ⟨m', hm, hr, hw⟩ := ih (m.write i b) (i + 1) (by omega)
    refine ⟨m', ?_, fun j => ?_, fun w => hw (m.wf_write i b w)⟩
    · simp only [outWriteAll, outWrite, if_pos (show i < cap by omega)]
      exact hm
    · rw [hr j, Memory.read_write]
      simp only [List.length_cons]
      by_cases hj : j = i
      · subst hj; simp
      · by_cases hl : i + 1 ≤ j ∧ j < i + 1 + bs.length
        · rw [if_pos hl, if_pos (by omega)]
          obtain ⟨k, rfl⟩ : ∃ k, j = i + 1 + k := ⟨j - (i + 1), by omega⟩
          simp [show i + 1 + k - i = k + 1 by omega]
        · rw [if_neg hl, if_neg hj, if_neg (by omega)]

/-- Reading bytes that stand in OUT. -/
theorem outReadAll_of_read (m : Memory) (i : Nat) (bs : List Byte)
    (h : ∀ k, k < bs.length → m.read (i + k) = bs[k]?) : outReadAll m i bs.length = .ok bs := by
  induction bs generalizing i with
  | nil => rfl
  | cons b bs ih =>
    have h0 := h 0 (by simp)
    simp only [Nat.add_zero, List.getElem?_cons_zero] at h0
    have hr := ih (i + 1) (fun k hk => by
      have := h (k + 1) (by simpa using hk)
      simpa [show i + (k + 1) = i + 1 + k by omega] using this)
    simp only [List.length_cons, outReadAll, h0, hr]
    rfl

end Sys2Proof.Machine
end

