-- ==== Sys2Proof/Laws/State.lean ====
section
/-! SUPPORT. One lemma for each field after each state update, so that no later proof unfolds an update. -/

namespace Sys2Proof.Machine

@[simp] theorem State.answer_cfg (s : State) (r : Response) : (s.answer r).cfg = s.cfg := rfl
@[simp] theorem State.answer_outs (s : State) (r : Response) : (s.answer r).outs = s.outs := rfl
@[simp] theorem State.answer_rx (s : State) (r : Response) : (s.answer r).rx = s.rx := rfl
@[simp] theorem State.answer_cur (s : State) (r : Response) : (s.answer r).cur = s.cur := rfl
@[simp] theorem State.answer_conn (s : State) (r : Response) : (s.answer r).conn = s.conn := rfl
@[simp] theorem State.answer_tx (s : State) (r : Response) : (s.answer r).tx = s.tx := rfl
@[simp] theorem State.answer_events (s : State) (r : Response) : (s.answer r).events = s.events := rfl
@[simp] theorem State.answer_task (s : State) (r : Response) : (s.answer r).task = s.task := rfl
@[simp] theorem State.answer_inputs (s : State) (r : Response) : (s.answer r).inputs = s.inputs := rfl
@[simp] theorem State.answer_responses (s : State) (r : Response) : (s.answer r).responses = s.responses ++ [r] := rfl

@[simp] theorem State.emit_cfg (s : State) (e : Event) : (s.emit e).cfg = s.cfg := rfl
@[simp] theorem State.emit_outs (s : State) (e : Event) : (s.emit e).outs = s.outs := rfl
@[simp] theorem State.emit_rx (s : State) (e : Event) : (s.emit e).rx = s.rx := rfl
@[simp] theorem State.emit_cur (s : State) (e : Event) : (s.emit e).cur = s.cur := rfl
@[simp] theorem State.emit_conn (s : State) (e : Event) : (s.emit e).conn = s.conn := rfl
@[simp] theorem State.emit_tx (s : State) (e : Event) : (s.emit e).tx = s.tx := rfl
@[simp] theorem State.emit_events (s : State) (e : Event) : (s.emit e).events = s.events ++ [e] := rfl
@[simp] theorem State.emit_task (s : State) (e : Event) : (s.emit e).task = s.task := rfl
@[simp] theorem State.emit_inputs (s : State) (e : Event) : (s.emit e).inputs = s.inputs := rfl
@[simp] theorem State.emit_responses (s : State) (e : Event) : (s.emit e).responses = s.responses := rfl

@[simp] theorem State.advance_cfg (s : State) (n : Nat) : (s.advance n).cfg = s.cfg := rfl
@[simp] theorem State.advance_outs (s : State) (n : Nat) : (s.advance n).outs = s.outs := rfl
@[simp] theorem State.advance_rx (s : State) (n : Nat) : (s.advance n).rx = s.rx.drop n := rfl
@[simp] theorem State.advance_cur (s : State) (n : Nat) : (s.advance n).cur = s.cur + n := rfl
@[simp] theorem State.advance_conn (s : State) (n : Nat) : (s.advance n).conn = s.conn := rfl
@[simp] theorem State.advance_tx (s : State) (n : Nat) : (s.advance n).tx = s.tx := rfl
@[simp] theorem State.advance_events (s : State) (n : Nat) : (s.advance n).events = s.events := rfl
@[simp] theorem State.advance_task (s : State) (n : Nat) : (s.advance n).task = s.task := rfl
@[simp] theorem State.advance_inputs (s : State) (n : Nat) : (s.advance n).inputs = s.inputs := rfl
@[simp] theorem State.advance_responses (s : State) (n : Nat) : (s.advance n).responses = s.responses := rfl

@[simp] theorem State.shut_cfg (s : State) : (s.shut).cfg = s.cfg := rfl
@[simp] theorem State.shut_outs (s : State) : (s.shut).outs = s.outs := rfl
@[simp] theorem State.shut_rx (s : State) : (s.shut).rx = [] := rfl
@[simp] theorem State.shut_cur (s : State) : (s.shut).cur = s.cur := rfl
@[simp] theorem State.shut_conn (s : State) : (s.shut).conn = .closed := rfl
@[simp] theorem State.shut_tx (s : State) : (s.shut).tx = s.tx := rfl
@[simp] theorem State.shut_events (s : State) : (s.shut).events = s.events := rfl
@[simp] theorem State.shut_task (s : State) : (s.shut).task = s.task := rfl
@[simp] theorem State.shut_inputs (s : State) : (s.shut).inputs = s.inputs := rfl
@[simp] theorem State.shut_responses (s : State) : (s.shut).responses = s.responses := rfl

@[simp] theorem State.receive_cfg (s : State) (bytes : List Byte) : (s.receive bytes).cfg = s.cfg := rfl
@[simp] theorem State.receive_outs (s : State) (bytes : List Byte) : (s.receive bytes).outs = s.outs := rfl
@[simp] theorem State.receive_rx (s : State) (bytes : List Byte) : (s.receive bytes).rx = s.rx ++ bytes := rfl
@[simp] theorem State.receive_cur (s : State) (bytes : List Byte) : (s.receive bytes).cur = s.cur := rfl
@[simp] theorem State.receive_conn (s : State) (bytes : List Byte) : (s.receive bytes).conn = s.conn := rfl
@[simp] theorem State.receive_tx (s : State) (bytes : List Byte) : (s.receive bytes).tx = s.tx := rfl
@[simp] theorem State.receive_events (s : State) (bytes : List Byte) : (s.receive bytes).events = s.events := rfl
@[simp] theorem State.receive_task (s : State) (bytes : List Byte) : (s.receive bytes).task = s.task := rfl
@[simp] theorem State.receive_inputs (s : State) (bytes : List Byte) : (s.receive bytes).inputs = s.inputs := rfl
@[simp] theorem State.receive_responses (s : State) (bytes : List Byte) : (s.receive bytes).responses = s.responses := rfl

@[simp] theorem State.transmit_cfg (s : State) (bytes : List Byte) : (s.transmit bytes).cfg = s.cfg := rfl
@[simp] theorem State.transmit_outs (s : State) (bytes : List Byte) : (s.transmit bytes).outs = s.outs := rfl
@[simp] theorem State.transmit_rx (s : State) (bytes : List Byte) : (s.transmit bytes).rx = s.rx := rfl
@[simp] theorem State.transmit_cur (s : State) (bytes : List Byte) : (s.transmit bytes).cur = s.cur := rfl
@[simp] theorem State.transmit_conn (s : State) (bytes : List Byte) : (s.transmit bytes).conn = s.conn := rfl
@[simp] theorem State.transmit_tx (s : State) (bytes : List Byte) : (s.transmit bytes).tx = s.tx ++ bytes := rfl
@[simp] theorem State.transmit_events (s : State) (bytes : List Byte) : (s.transmit bytes).events = s.events := rfl
@[simp] theorem State.transmit_task (s : State) (bytes : List Byte) : (s.transmit bytes).task = s.task := rfl
@[simp] theorem State.transmit_inputs (s : State) (bytes : List Byte) : (s.transmit bytes).inputs = s.inputs := rfl
@[simp] theorem State.transmit_responses (s : State) (bytes : List Byte) : (s.transmit bytes).responses = s.responses := rfl

@[simp] theorem State.openNew_cfg (s : State) : (s.openNew).cfg = s.cfg := rfl
@[simp] theorem State.openNew_outs (s : State) : (s.openNew).outs = s.outs := rfl
@[simp] theorem State.openNew_rx (s : State) : (s.openNew).rx = [] := rfl
@[simp] theorem State.openNew_cur (s : State) : (s.openNew).cur = 0 := rfl
@[simp] theorem State.openNew_conn (s : State) : (s.openNew).conn = .opened := rfl
@[simp] theorem State.openNew_tx (s : State) : (s.openNew).tx = [] := rfl
@[simp] theorem State.openNew_events (s : State) : (s.openNew).events = [] := rfl
@[simp] theorem State.openNew_task (s : State) : (s.openNew).task = .idle := rfl
@[simp] theorem State.openNew_inputs (s : State) : (s.openNew).inputs = s.inputs := rfl
@[simp] theorem State.openNew_responses (s : State) : (s.openNew).responses = s.responses := rfl

@[simp] theorem State.withTask_cfg (s : State) (t : Task) : (s.withTask t).cfg = s.cfg := rfl
@[simp] theorem State.withTask_outs (s : State) (t : Task) : (s.withTask t).outs = s.outs := rfl
@[simp] theorem State.withTask_rx (s : State) (t : Task) : (s.withTask t).rx = s.rx := rfl
@[simp] theorem State.withTask_cur (s : State) (t : Task) : (s.withTask t).cur = s.cur := rfl
@[simp] theorem State.withTask_conn (s : State) (t : Task) : (s.withTask t).conn = s.conn := rfl
@[simp] theorem State.withTask_tx (s : State) (t : Task) : (s.withTask t).tx = s.tx := rfl
@[simp] theorem State.withTask_events (s : State) (t : Task) : (s.withTask t).events = s.events := rfl
@[simp] theorem State.withTask_task (s : State) (t : Task) : (s.withTask t).task = t := rfl
@[simp] theorem State.withTask_inputs (s : State) (t : Task) : (s.withTask t).inputs = s.inputs := rfl
@[simp] theorem State.withTask_responses (s : State) (t : Task) : (s.withTask t).responses = s.responses := rfl

@[simp] theorem State.handBack_cfg (s : State) (m : Memory) : (s.handBack m).cfg = s.cfg := rfl
@[simp] theorem State.handBack_outs (s : State) (m : Memory) : (s.handBack m).outs = s.outs ++ [m] := rfl
@[simp] theorem State.handBack_rx (s : State) (m : Memory) : (s.handBack m).rx = s.rx := rfl
@[simp] theorem State.handBack_cur (s : State) (m : Memory) : (s.handBack m).cur = s.cur := rfl
@[simp] theorem State.handBack_conn (s : State) (m : Memory) : (s.handBack m).conn = s.conn := rfl
@[simp] theorem State.handBack_tx (s : State) (m : Memory) : (s.handBack m).tx = s.tx := rfl
@[simp] theorem State.handBack_events (s : State) (m : Memory) : (s.handBack m).events = s.events := rfl
@[simp] theorem State.handBack_task (s : State) (m : Memory) : (s.handBack m).task = s.task := rfl
@[simp] theorem State.handBack_inputs (s : State) (m : Memory) : (s.handBack m).inputs = s.inputs := rfl
@[simp] theorem State.handBack_responses (s : State) (m : Memory) : (s.handBack m).responses = s.responses := rfl

@[simp] theorem State.withInputs_cfg (s : State) (rest : List Input) : (s.withInputs rest).cfg = s.cfg := rfl
@[simp] theorem State.withInputs_outs (s : State) (rest : List Input) : (s.withInputs rest).outs = s.outs := rfl
@[simp] theorem State.withInputs_rx (s : State) (rest : List Input) : (s.withInputs rest).rx = s.rx := rfl
@[simp] theorem State.withInputs_cur (s : State) (rest : List Input) : (s.withInputs rest).cur = s.cur := rfl
@[simp] theorem State.withInputs_conn (s : State) (rest : List Input) : (s.withInputs rest).conn = s.conn := rfl
@[simp] theorem State.withInputs_tx (s : State) (rest : List Input) : (s.withInputs rest).tx = s.tx := rfl
@[simp] theorem State.withInputs_events (s : State) (rest : List Input) : (s.withInputs rest).events = s.events := rfl
@[simp] theorem State.withInputs_task (s : State) (rest : List Input) : (s.withInputs rest).task = s.task := rfl
@[simp] theorem State.withInputs_inputs (s : State) (rest : List Input) : (s.withInputs rest).inputs = rest := rfl
@[simp] theorem State.withInputs_responses (s : State) (rest : List Input) : (s.withInputs rest).responses = s.responses := rfl

end Sys2Proof.Machine
end

