-- ==== Sys2Proof/Laws/Ops.lean ====
section
/-! SUPPORT. One lemma for each shared operation that says once what it can do. -/

namespace Sys2Proof.Machine

/-! ## The framer -/

/-- No terminator is found exactly where there is none. -/
theorem findTerminator_none (buf : List Byte) : findTerminator buf = none ↔ terminator ∉ buf := by
  simp only [findTerminator, List.findIdx?_eq_none_iff, beq_eq_false_iff_ne]
  exact ⟨fun h hm => h _ hm rfl, fun h x hx e => h (e ▸ hx)⟩

/-- The first terminator stands after a clean start. -/
theorem findTerminator_clean (p rest : List Byte) (h : terminator ∉ p) :
    findTerminator (p ++ terminator :: rest) = some p.length := by
  induction p with
  | nil => simp [findTerminator, List.findIdx?_cons]
  | cons b p ih =>
    have hb : b ≠ terminator := fun e => h (e ▸ List.mem_cons_self)
    have hp : terminator ∉ p := fun hm => h (List.mem_cons_of_mem _ hm)
    have := ih hp
    simp only [findTerminator] at this ⊢
    simp [List.findIdx?_cons, hb, this]

/-- A stream with a terminator is a clean start, the terminator, and the rest. -/
theorem findTerminator_some {buf : List Byte} {t : Nat} (h : findTerminator buf = some t) :
    ∃ p rest, buf = p ++ terminator :: rest ∧ terminator ∉ p ∧ p.length = t := by
  have hm : terminator ∈ buf := by
    by_contra hn
    rw [(findTerminator_none buf).mpr hn] at h
    cases h
  obtain ⟨p, rest, rfl, hp⟩ := List.eq_append_cons_of_mem hm
  rw [findTerminator_clean p rest hp] at h
  exact ⟨p, rest, rfl, hp, by simpa using h⟩

/-- What EXTRACT does with a stream that begins with a clean run of bytes and a terminator: a header and a
payload, or corrupt (R107, R108, R109). -/
theorem vcuExtract_frame (cfg : Config) (hdr : Byte) (p rest : List Byte) (hh : hdr ≠ terminator)
    (hp : terminator ∉ p) :
    vcuExtract cfg (hdr :: (p ++ terminator :: rest)) =
      if cfg.cap < p.length then .ok (.bad .overCapacity)
      else .ok (.found ⟨hdr.extractLsb' 4 3, hdr.extractLsb' 0 4, p⟩ (p.length + 2)) := by
  have hc : terminator ∉ hdr :: p := by
    simp only [List.mem_cons, not_or]
    exact ⟨hh.symm, hp⟩
  have hf := findTerminator_clean (hdr :: p) rest hc
  simp only [List.cons_append, List.length_cons] at hf
  simp [vcuExtract, hf, memRead, bind, Except.bind]

theorem vcuExtract_atZero (cfg : Config) (rest : List Byte) :
    vcuExtract cfg (terminator :: rest) = .ok (.bad .termAtZero) := by
  have hf := findTerminator_clean [] rest (by simp)
  simp only [List.nil_append, List.length_nil] at hf
  simp [vcuExtract, hf]

theorem vcuExtract_incomplete (cfg : Config) (buf : List Byte) (h : terminator ∉ buf) :
    vcuExtract cfg buf = .ok .needMore := by
  simp [vcuExtract, (findTerminator_none buf).mpr h]

/-- Every stream is one of three: no terminator; the terminator first; a header, a clean payload and the
terminator. -/
theorem stream_cases (buf : List Byte) :
    terminator ∉ buf ∨ (∃ rest, buf = terminator :: rest) ∨
    (∃ hdr p rest, buf = hdr :: (p ++ terminator :: rest) ∧ hdr ≠ terminator ∧ terminator ∉ p) := by
  by_cases h : terminator ∈ buf
  · obtain ⟨p, rest, rfl, hp⟩ := List.eq_append_cons_of_mem h
    cases p with
    | nil => exact .inr (.inl ⟨rest, rfl⟩)
    | cons hdr p =>
      simp only [List.mem_cons, not_or] at hp
      exact .inr (.inr ⟨hdr, p, rest, rfl, fun e => hp.1 e.symm, hp.2⟩)
  · exact .inl h

/-! ## Rows of a well-formed configuration -/

/-- What W2, W3 and W7 say of a row. -/
theorem Entry.wf_lengths {cap : Nat} {e : Entry} (h : e.wf cap = true) :
    e.length ≤ cap ∧ e.signature.length = e.length ∧ e.codec.minLen ≤ e.length := by
  simp only [Entry.wf, Bool.and_eq_true, decide_eq_true_eq, beq_iff_eq] at h
  exact ⟨h.1.1.1.1.1.1.1.2, h.1.1.1.1.1.1.2, h.1.2⟩

theorem Entry.admits_length {e : Entry} {p : List Byte} (h : e.admits p = true) : p.length = e.length := by
  simp only [Entry.admits, Bool.and_eq_true, beq_iff_eq] at h
  exact h.1

theorem Config.wf_rows {c : Config} (h : c.wf = true) : ∀ e ∈ c.rows, e.wf c.cap = true := by
  simp only [Config.wf, Bool.and_eq_true, List.all_eq_true] at h
  exact h.1.2

theorem Config.wf_maxFrame {c : Config} (h : c.wf = true) : 2 ≤ c.maxFrame := by
  simp only [Config.wf, Bool.and_eq_true, decide_eq_true_eq] at h
  exact h.1.1.1

/-! ## The classifier -/

/-- What the search for a row can do: no row admits the payload, or the first that does gives the answer. -/
theorem classifyFrom_cases (n cap : Nat) (rows : List Entry) (p : List Byte)
    (hw : ∀ e ∈ rows, e.wf cap = true) :
    (classifyFrom n rows p = .ok .noRow ∧ ∀ e ∈ rows, e.admits p = false) ∨
    (∃ pre e post prm, rows = pre ++ e :: post ∧ (∀ d ∈ pre, d.admits p = false) ∧ e.admits p = true ∧
      codecDecode e.codec p = .ok prm ∧ classifyFrom n rows p = .ok (.hit e.kind (n + pre.length) prm)) := by
  induction rows generalizing n with
  | nil => exact .inl ⟨rfl, by simp⟩
  | cons e rest ih =>
    by_cases ha : e.admits p = true
    · have hl := Entry.wf_lengths (hw e List.mem_cons_self)
      obtain ⟨prm, hprm⟩ := codecDecode_total e.codec p (by rw [Entry.admits_length ha]; exact hl.2.2)
      refine .inr ⟨[], e, rest, prm, rfl, by simp, ha, hprm, ?_⟩
      simp [classifyFrom, ha, hprm, bind, Except.bind]
    · have hn : e.admits p = false := by simpa using ha
      rcases ih (n + 1) (fun d hd => hw d (List.mem_cons_of_mem _ hd)) with ⟨h1, h2⟩ | ⟨pre, d, post, prm, h⟩
      · refine .inl ⟨by simp [classifyFrom, hn, h1], fun d hd => ?_⟩
        rcases List.mem_cons.mp hd with rfl | hd
        · exact hn
        · exact h2 d hd
      · obtain ⟨h1, h2, h3, h4, h5⟩ := h
        refine .inr ⟨e :: pre, d, post, prm, by simp [h1], fun x hx => ?_, h3, h4, ?_⟩
        · rcases List.mem_cons.mp hx with rfl | hx
          · exact hn
          · exact h2 x hx
        · simp [classifyFrom, hn, h5, Nat.add_comm, Nat.add_left_comm]

/-- What the search for a kind can do. -/
theorem templateFrom_cases (n : Nat) (rows : List Entry) (k : Kind) :
    (templateFrom n rows k = .error .unknownKind ∧ ∀ e ∈ rows, e.kind ≠ k) ∨
    (∃ pre e post, rows = pre ++ e :: post ∧ (∀ d ∈ pre, d.kind ≠ k) ∧ e.kind = k ∧
      templateFrom n rows k = .ok (e, n + pre.length)) := by
  induction rows generalizing n with
  | nil => exact .inl ⟨rfl, by simp⟩
  | cons e rest ih =>
    by_cases hk : e.kind = k
    · exact .inr ⟨[], e, rest, rfl, by simp, hk, by simp [templateFrom, hk]⟩
    · rcases ih (n + 1) with ⟨h1, h2⟩ | ⟨pre, d, post, h1, h2, h3, h4⟩
      · refine .inl ⟨by simp [templateFrom, hk, h1], fun d hd => ?_⟩
        rcases List.mem_cons.mp hd with rfl | hd
        · exact hk
        · exact h2 d hd
      · refine .inr ⟨e :: pre, d, post, by simp [h1], fun x hx => ?_, h3, ?_⟩
        · rcases List.mem_cons.mp hx with rfl | hx
          · exact hk
          · exact h2 x hx
        · simp [templateFrom, hk, h4, Nat.add_comm, Nat.add_left_comm]

/-! ## The framer's writes -/

/-- What SERIALIZE's writes do when they fit: OUT holds the frame, every other byte of it is as it was, and its
canonical form is kept. -/
theorem serializeWrites_fits (sender receiver : Byte) (p : List Byte) (cap : Nat) (out : Memory)
    (h : p.length + 2 ≤ cap) :
    ∃ m, serializeWrites sender receiver p cap out =
        .ok (m, .done (headerByte sender receiver :: (p ++ [terminator]))) ∧
      (∀ j, m.read j = if j < p.length + 2 then (headerByte sender receiver :: (p ++ [terminator]))[j]?
        else out.read j) ∧
      (Memory.wf out = true → Memory.wf m = true) := by
  obtain ⟨m, hm, hr, hw⟩ := outWriteAll_fits cap (out.write 0 (headerByte sender receiver)) 1 p (by omega)
  have hread : ∀ j, (m.write (p.length + 1) terminator).read j =
      if j < p.length + 2 then (headerByte sender receiver :: (p ++ [terminator]))[j]? else out.read j := by
    intro j
    rw [Memory.read_write, hr j, Memory.read_write]
    by_cases h1 : j = p.length + 1
    · subst h1; simp
    · rw [if_neg h1]
      by_cases h2 : 1 ≤ j ∧ j < 1 + p.length
      · rw [if_pos h2, if_pos (by omega)]
        obtain ⟨k, rfl⟩ : ∃ k, j = k + 1 := ⟨j - 1, by omega⟩
        simp [List.getElem?_append_left (show k < p.length by omega)]
      · rw [if_neg h2]
        by_cases h3 : j = 0
        · subst h3; simp
        · rw [if_neg h3, if_neg (by omega)]
  refine ⟨m.write (p.length + 1) terminator, ?_, hread, fun w => Memory.wf_write _ _ _ (hw (Memory.wf_write _ _ _ w))⟩
  have hall : outReadAll (m.write (p.length + 1) terminator) 0 (p.length + 2) =
      .ok (headerByte sender receiver :: (p ++ [terminator])) := by
    have := outReadAll_of_read (m.write (p.length + 1) terminator) 0
      (headerByte sender receiver :: (p ++ [terminator])) (fun k hk => by
        simp only [List.length_cons, List.length_append, List.length_nil] at hk
        rw [Nat.zero_add, hread k, if_pos (by omega)])
    simpa using this
  simp [serializeWrites, outWrite, show 0 < cap by omega, show p.length + 1 < cap by omega, hm, hall, bind,
    Except.bind]

/-- What SERIALIZE can do. -/
theorem vcuSerialize_cases (sender receiver : Byte) (p : List Byte) (cap : Nat) (out : Memory) :
    ((sender.toNat > 7 ∨ receiver.toNat > 15) ∧
      vcuSerialize sender receiver p cap out = .error (.raised .addressRange)) ∨
    ((sender.toNat ≤ 7 ∧ receiver.toNat ≤ 15) ∧ cap < p.length + 2 ∧
      vcuSerialize sender receiver p cap out = .error (.raised .capacity)) ∨
    ((sender.toNat ≤ 7 ∧ receiver.toNat ≤ 15) ∧ p.length + 2 ≤ cap ∧
      ∃ m, vcuSerialize sender receiver p cap out =
          .ok (m, .done (headerByte sender receiver :: (p ++ [terminator]))) ∧
        (∀ j, m.read j = if j < p.length + 2 then (headerByte sender receiver :: (p ++ [terminator]))[j]?
          else out.read j) ∧
        (Memory.wf out = true → Memory.wf m = true)) := by
  by_cases ha : sender.toNat > 7 ∨ receiver.toNat > 15
  · exact .inl ⟨ha, by simp [vcuSerialize, ha]⟩
  · have hb : sender.toNat ≤ 7 ∧ receiver.toNat ≤ 15 := by omega
    by_cases hc : p.length + 2 > cap
    · exact .inr (.inl ⟨hb, hc, by simp only [vcuSerialize, if_neg ha, if_pos hc]⟩)
    · obtain ⟨m, h1, h2⟩ := serializeWrites_fits sender receiver p cap out (by omega)
      exact .inr (.inr ⟨hb, by omega, m, by simp only [vcuSerialize, if_neg ha, if_neg hc, h1], h2⟩)

/-! ## The sequencer -/

/-- What DECODE does with an extracted frame. -/
theorem decodeFrame_cases (cfg : Config) (hw : cfg.wf = true) (f : Frame) (n : Int) :
    (decodeFrame cfg f n = .ok (.noRow n f.sender f.receiver) ∧ ∀ e ∈ cfg.rows, e.admits f.payload = false) ∨
    (∃ pre e post prm, cfg.rows = pre ++ e :: post ∧ (∀ d ∈ pre, d.admits f.payload = false) ∧
      e.admits f.payload = true ∧ codecDecode e.codec f.payload = .ok prm ∧
      decodeFrame cfg f n = .ok (.hit n f.sender f.receiver e.kind prm)) := by
  rcases classifyFrom_cases 0 cfg.cap cfg.rows f.payload (Config.wf_rows hw) with ⟨h, ha⟩ | ⟨pre, e, post, prm, h1, h2, h3, h4, h5⟩
  · exact .inl ⟨by simp [decodeFrame, vcuClassify, h, ClassifyResponse.noRow, bind, Except.bind], ha⟩
  · exact .inr ⟨pre, e, post, prm, h1, h2, h3, h4, by
      simp [decodeFrame, vcuClassify, h5, ClassifyResponse.hit, readField, bind, Except.bind]⟩

/-- What DECODE does with a stream that holds no terminator. -/
theorem vcuDecode_incomplete (cfg : Config) (buf : List Byte) (h : terminator ∉ buf) :
    vcuDecode cfg buf = .ok .needMore := by
  simp [vcuDecode, vcuExtract_incomplete cfg buf h, ExtractResponse.needMore, bind, Except.bind]

theorem vcuDecode_atZero (cfg : Config) (rest : List Byte) :
    vcuDecode cfg (terminator :: rest) = .ok (.bad .termAtZero) := by
  simp [vcuDecode, vcuExtract_atZero, ExtractResponse.bad, readField, bind, Except.bind]

/-- What DECODE does with a stream that begins with a header, a clean payload and a terminator. -/
theorem vcuDecode_frame (cfg : Config) (hdr : Byte) (p rest : List Byte) (hh : hdr ≠ terminator)
    (hp : terminator ∉ p) :
    vcuDecode cfg (hdr :: (p ++ terminator :: rest)) =
      if cfg.cap < p.length then .ok (.bad .overCapacity)
      else decodeFrame cfg ⟨hdr.extractLsb' 4 3, hdr.extractLsb' 0 4, p⟩ ((p.length + 2 : Nat) : Int) := by
  simp only [vcuDecode, vcuExtract_frame cfg hdr p rest hh hp]
  split <;> simp [ExtractResponse.bad, ExtractResponse.found, readField, bind, Except.bind]

/-- What DECODE can do, on any stream, in a well-formed configuration. -/
theorem vcuDecode_total (cfg : Config) (hw : cfg.wf = true) (buf : List Byte) :
    ∃ d, vcuDecode cfg buf = .ok d := by
  rcases stream_cases buf with h | ⟨rest, rfl⟩ | ⟨hdr, p, rest, rfl, hh, hp⟩
  · exact ⟨_, vcuDecode_incomplete cfg buf h⟩
  · exact ⟨_, vcuDecode_atZero cfg rest⟩
  · rw [vcuDecode_frame cfg hdr p rest hh hp]
    split
    · exact ⟨_, rfl⟩
    · rcases decodeFrame_cases cfg hw ⟨hdr.extractLsb' 4 3, hdr.extractLsb' 0 4, p⟩ _ with ⟨h, _⟩ | ⟨_, _, _, _, _, _, _, _, h⟩
      · exact ⟨_, h⟩
      · exact ⟨_, h⟩

/-- What ENCODE can do in a well-formed configuration: it raises one of its errors, or it writes the frame of the
row's encoded signature. -/
theorem vcuEncode_cases (cfg : Config) (hw : cfg.wf = true) (k : Kind) (prm : Params) (snd rcv : Byte)
    (cap : Nat) (out : Memory) :
    (∃ e, vcuEncode cfg k prm snd rcv cap out = .error (.raised e)) ∨
    (∃ e p m, e ∈ cfg.rows ∧ e.kind = k ∧ codecEncode e.codec e.signature prm = .ok p ∧ p.length = e.length ∧
      (snd.toNat ≤ 7 ∧ rcv.toNat ≤ 15) ∧ p.length + 2 ≤ cap ∧
      vcuEncode cfg k prm snd rcv cap out = .ok (m, .done (headerByte snd rcv :: (p ++ [terminator]))) ∧
      (∀ j, m.read j = if j < p.length + 2 then (headerByte snd rcv :: (p ++ [terminator]))[j]?
        else out.read j) ∧
      (Memory.wf out = true → Memory.wf m = true)) := by
  rcases templateFrom_cases 0 cfg.rows k with ⟨h, _⟩ | ⟨pre, e, post, hr, _, hk, h⟩
  · exact .inl ⟨.unknownKind, by simp [vcuEncode, vcuTemplate, h]⟩
  · have he : e ∈ cfg.rows := by rw [hr]; simp
    have hl := Entry.wf_lengths (Config.wf_rows hw e he)
    rcases codecEncode_cases e.codec e.signature prm (by omega) with ⟨x, _, hx⟩ | ⟨p, _, _, hx, hp⟩
    · exact .inl ⟨x, by simp only [vcuEncode, vcuTemplate, h, hx]⟩
    · rcases vcuSerialize_cases snd rcv p cap out with ⟨_, hs⟩ | ⟨_, _, hs⟩ | ⟨ha, hc, m, hs, hm⟩
      · exact .inl ⟨.addressRange, by simp only [vcuEncode, vcuTemplate, h, hx, hs]⟩
      · exact .inl ⟨.capacity, by simp only [vcuEncode, vcuTemplate, h, hx, hs]⟩
      · exact .inr ⟨e, p, m, he, hk, hx, by omega, ha, hc, by simp only [vcuEncode, vcuTemplate, h, hx, hs], hm⟩

/-- What CODEC can do: it never faults. -/
theorem vcuCodec_cases (dir : Dir) (c : CodecId) (work : List Byte) (prm : Params) :
    (∃ e, vcuCodec dir c work prm = .error (.raised e)) ∨ (∃ r, vcuCodec dir c work prm = .ok r) := by
  by_cases hl : work.length < c.minLen
  · exact .inl ⟨.capacity, by simp only [vcuCodec, if_pos hl]⟩
  · cases dir with
    | decode =>
      obtain ⟨p, hp⟩ := codecDecode_total c work (by omega)
      exact .inr ⟨.decoded p, by simp only [vcuCodec, if_neg hl, hp]⟩
    | encode =>
      rcases codecEncode_cases c work prm (by omega) with ⟨x, _, hx⟩ | ⟨p, _, _, hx, _⟩
      · exact .inl ⟨x, by simp only [vcuCodec, if_neg hl, hx]⟩
      · exact .inr ⟨.encoded p, by simp only [vcuCodec, if_neg hl, hx]⟩

/-! ## Ending a request -/

theorem whenConfigured_wf {s : State} (h : s.cfg.wf = true) (r : Result) : whenConfigured s r = r := by
  simp [whenConfigured, h]

/-- What the gate can do. -/
theorem whenConfigured_next {s t : State} {r : Result} (h : whenConfigured s r = .next t) :
    s.cfg.wf = true ∧ r = .next t := by
  simp only [whenConfigured] at h
  split at h
  · next hw => exact ⟨hw, h⟩
  · cases h

theorem answerWith_next {α : Type} {f : α → Response} {r : Except Fault α} {s t : State}
    (h : answerWith f r s = .next t) : ∃ a, r = .ok a ∧ t = s.answer (f a) := by
  cases r with
  | ok a => exact ⟨a, rfl, by simpa [answerWith] using h.symm⟩
  | error x => simp [answerWith] at h

theorem finishEncode_next {f : EncodeResponse → Response} {out : Memory}
    {r : Except Stop (Memory × EncodeResponse)} {s t : State} (h : finishEncode f out r s = .next t) :
    (∃ m e, r = .ok (m, e) ∧ t = (s.handBack m).answer (f e)) ∨
    (∃ e, r = .error (.raised e) ∧ t = (s.handBack out).answer (f (.failed e))) := by
  match r, h with
  | .ok (m, e), h => exact .inl ⟨m, e, rfl, by simpa [finishEncode] using h.symm⟩
  | .error (.raised e), h => exact .inr ⟨e, rfl, by simpa [finishEncode, raiseError] using h.symm⟩
  | .error (.fault x), h => simp [finishEncode] at h

/-! ## The harness -/

/-- What POLL's return can do. -/
theorem endPoll_cases (s : State) :
    endPoll s = s.withTask .idle ∨
    (s.task = .receiving ∧ s.overflowing = true ∧
      endPoll s = ((s.emit (.overflow s.cur)).shut).withTask .idle) := by
  cases ht : s.task <;> cases ho : s.overflowing <;> simp [endPoll, ht, ho]

/-- What one pass of POLL's loop can do, in a well-formed configuration. -/
theorem pollOnce_cases (bytes : List Byte) (s : State) (hw : s.cfg.wf = true) :
    (s.conn = .closed ∧ pollOnce bytes s = .next (s.withTask .idle)) ∨
    (s.conn = .opened ∧ terminator ∉ bytes ∧ pollOnce bytes s = .next (endPoll s)) ∨
    (s.conn = .opened ∧ ∃ r, vcuDecode s.cfg bytes = .ok (.bad r) ∧
      pollOnce bytes s = .next (((s.emit (.corrupt s.cur r)).shut).withTask .idle)) ∨
    (s.conn = .opened ∧ ∃ n snd rcv p, pollOnce bytes s = .next ((s.emit (.unknown s.cur snd rcv p)).advance n)) ∨
    (s.conn = .opened ∧ ∃ n snd rcv k p, pollOnce bytes s = .next ((s.emit (.msg s.cur snd rcv k p)).advance n)) := by
  by_cases hc : s.conn = .closed
  · exact .inl ⟨hc, by simp [pollOnce, whenConfigured, hw, hc]⟩
  · have ho : s.conn = .opened := by
      cases h : s.conn
      · rfl
      · exact absurd h hc
    have step : ∀ d, vcuDecode s.cfg bytes = .ok d → pollOnce bytes s =
        match pollCase bytes d s with
        | .error f => .fault f
        | .ok s' => .next s' := fun d hd => by simp [pollOnce, whenConfigured, hw, hc, hd] <;> rfl
    refine .inr ?_
    rcases stream_cases bytes with h | ⟨rest, rfl⟩ | ⟨hdr, p, rest, rfl, hh, hp⟩
    · exact .inl ⟨ho, h, by
        rw [step _ (vcuDecode_incomplete s.cfg bytes h)]; simp [pollCase, DecodeResponse.needMore]⟩
    · have hd := vcuDecode_atZero s.cfg rest
      exact .inr (.inl ⟨ho, _, hd, by
        rw [step _ hd]; simp [pollCase, DecodeResponse.bad, readField, bind, Except.bind]⟩)
    · have hd := vcuDecode_frame s.cfg hdr p rest hh hp
      split at hd
      · exact .inr (.inl ⟨ho, _, hd, by
          rw [step _ hd]; simp [pollCase, DecodeResponse.bad, readField, bind, Except.bind]⟩)
      · rcases decodeFrame_cases s.cfg hw ⟨hdr.extractLsb' 4 3, hdr.extractLsb' 0 4, p⟩ ((p.length + 2 : Nat) : Int) with
          ⟨h, _⟩ | ⟨_, e, _, prm, _, _, _, _, h⟩
        · rw [h] at hd
          exact .inr (.inr (.inl ⟨ho, _, _, _, _, by
            rw [step _ hd]; simp [pollCase, DecodeResponse.noRow, readField, bind, Except.bind]; rfl⟩))
        · rw [h] at hd
          exact .inr (.inr (.inr ⟨ho, _, _, _, _, _, by
            rw [step _ hd]; simp [pollCase, DecodeResponse.hit, readField, bind, Except.bind]; rfl⟩))

end Sys2Proof.Machine
end

