-- ==== Sys2Proof/Laws/PerInstr.lean ====
section
/-! SUPPORT. The law stated for every instruction, one lemma per constructor: the shape of its frame. -/

namespace Sys2Proof.Laws

/-- R73: the frame of a well-formed message holds 0xFF at its end only, and a payload of 1 to 13 bytes. -/
def FrameShape.Statement (i : Instr) : Prop :=
  i.wf = true → wireBytes i ≠ [] →
    ∃ h p, wireBytes i = frame h p ∧ h.byte ≠ terminator ∧ terminator ∉ p ∧ 1 ≤ p.length ∧ p.length ≤ 13

/-- A payload grows by a byte that is not the terminator. -/
theorem clean_cons {b : Byte} {p : List Byte} (hb : b ≠ terminator) (hp : terminator ∉ p) :
    terminator ∉ b :: p := by
  simp only [List.mem_cons, not_or]
  exact ⟨hb.symm, hp⟩

theorem clean_append {p q : List Byte} (hp : terminator ∉ p) (hq : terminator ∉ q) : terminator ∉ p ++ q := by
  simp only [List.mem_append, not_or]
  exact ⟨hp, hq⟩

theorem clean_nil : terminator ∉ ([] : List Byte) := List.not_mem_nil

/-- A low nibble under a high nibble other than F does not make the terminator. -/
theorem clean_nib {hi lo : Nibble} (h : hi ≠ 15) : nib hi lo ≠ terminator := nib_ne_terminator hi lo h

theorem frameShape_of {i : Instr} (h : Header) (p : List Byte) (hi : wireBytes i = frame h p)
    (hp : i.wf = true → h.wf = true ∧ terminator ∉ p) (hn : 1 ≤ p.length ∧ p.length ≤ 13) :
    FrameShape.Statement i :=
  fun hw _ => ⟨h, p, hi, header_byte_ne_terminator h (hp hw).1, (hp hw).2, hn.1, hn.2⟩

theorem frameShape_request {i : Instr} (hi : wireBytes i = []) : FrameShape.Statement i :=
  fun _ hne => absurd hi hne

theorem FrameShape.respByte (h : Header) (value : Byte) :
    FrameShape.Statement (.respByte h value) :=
  frameShape_of h ([0x50, value]) rfl
    (fun hw => by
      obtain ⟨hh, hvalue⟩ : h.wf = true ∧ value ≠ terminator := by
        simpa [Instr.wf, fieldWf_iff, and_assoc] using hw
      exact ⟨hh, (clean_cons (by decide) (clean_cons hvalue clean_nil))⟩)
    ⟨by simp, by simp⟩

theorem FrameShape.respP (h : Header) (value : Nibble) :
    FrameShape.Statement (.respP h value) :=
  frameShape_of h ([0x50, nib 0x0 value]) rfl (fun hw => ⟨hw, (clean_cons (by decide) (clean_cons (clean_nib (by decide)) clean_nil))⟩)
    ⟨by simp, by simp⟩

theorem FrameShape.respPQ (h : Header) (value : Byte) :
    FrameShape.Statement (.respPQ h value) :=
  frameShape_of h ([0x50] ++ digits2 value) rfl (fun hw => ⟨hw, (clean_append (clean_cons (by decide) clean_nil) (terminator_not_mem_digits2 value))⟩)
    ⟨by simp, by simp⟩

theorem FrameShape.respPQRS (h : Header) (value : Half) :
    FrameShape.Statement (.respPQRS h value) :=
  frameShape_of h ([0x50] ++ digits4 value) rfl (fun hw => ⟨hw, (clean_append (clean_cons (by decide) clean_nil) (terminator_not_mem_digits4 value))⟩)
    ⟨by simp, by simp⟩

theorem FrameShape.ptPosResp (h : Header) (panPos tiltPos : Half) :
    FrameShape.Statement (.ptPosResp h panPos tiltPos) :=
  frameShape_of h ([0x50] ++ digits4 panPos ++ digits4 tiltPos) rfl (fun hw => ⟨hw, (clean_append (clean_append (clean_cons (by decide) clean_nil) (terminator_not_mem_digits4 panPos)) (terminator_not_mem_digits4 tiltPos))⟩)
    ⟨by simp, by simp⟩

theorem FrameShape.ack (h : Header) (socket : Nibble) :
    FrameShape.Statement (.ack h socket) :=
  frameShape_of h ([nib 0x4 socket]) rfl (fun hw => ⟨hw, (clean_cons (clean_nib (by decide)) clean_nil)⟩)
    ⟨by simp, by simp⟩

theorem FrameShape.completion (h : Header) (socket : Nibble) :
    FrameShape.Statement (.completion h socket) :=
  frameShape_of h ([nib 0x5 socket]) rfl (fun hw => ⟨hw, (clean_cons (clean_nib (by decide)) clean_nil)⟩)
    ⟨by simp, by simp⟩

theorem FrameShape.error (h : Header) (socket : Nibble) (code : Byte) :
    FrameShape.Statement (.error h socket code) :=
  frameShape_of h ([nib 0x6 socket, code]) rfl
    (fun hw => by
      obtain ⟨hh, hcode⟩ : h.wf = true ∧ code ≠ terminator := by
        simpa [Instr.wf, fieldWf_iff, and_assoc] using hw
      exact ⟨hh, (clean_cons (clean_nib (by decide)) (clean_cons hcode clean_nil))⟩)
    ⟨by simp, by simp⟩

theorem FrameShape.camnumQuery (h : Header) :
    FrameShape.Statement (.camnumQuery h) :=
  frameShape_of h ([0x30, 0x01]) rfl (fun hw => ⟨hw, (clean_cons (by decide) (clean_cons (by decide) clean_nil))⟩) (by decide)

theorem FrameShape.camnumReply (h : Header) (index : Nibble) :
    FrameShape.Statement (.camnumReply h index) :=
  frameShape_of h ([0x30, nib 0x0 index]) rfl (fun hw => ⟨hw, (clean_cons (by decide) (clean_cons (clean_nib (by decide)) clean_nil))⟩)
    ⟨by simp, by simp⟩

theorem FrameShape.ptPosInq (h : Header) :
    FrameShape.Statement (.ptPosInq h) :=
  frameShape_of h ([0x09, 0x06, 0x12]) rfl (fun hw => ⟨hw, (clean_cons (by decide) (clean_cons (by decide) (clean_cons (by decide) clean_nil)))⟩) (by decide)

theorem FrameShape.zoomStop (h : Header) :
    FrameShape.Statement (.zoomStop h) :=
  frameShape_of h ([0x01, 0x04, 0x07, 0x00]) rfl (fun hw => ⟨hw, (clean_cons (by decide) (clean_cons (by decide) (clean_cons (by decide) (clean_cons (by decide) clean_nil))))⟩) (by decide)

theorem FrameShape.zoomTele (h : Header) :
    FrameShape.Statement (.zoomTele h) :=
  frameShape_of h ([0x01, 0x04, 0x07, 0x02]) rfl (fun hw => ⟨hw, (clean_cons (by decide) (clean_cons (by decide) (clean_cons (by decide) (clean_cons (by decide) clean_nil))))⟩) (by decide)

theorem FrameShape.zoomWide (h : Header) :
    FrameShape.Statement (.zoomWide h) :=
  frameShape_of h ([0x01, 0x04, 0x07, 0x03]) rfl (fun hw => ⟨hw, (clean_cons (by decide) (clean_cons (by decide) (clean_cons (by decide) (clean_cons (by decide) clean_nil))))⟩) (by decide)

theorem FrameShape.zoomTeleVar (h : Header) (value : Nibble) :
    FrameShape.Statement (.zoomTeleVar h value) :=
  frameShape_of h ([0x01, 0x04, 0x07, nib 0x2 value]) rfl (fun hw => ⟨hw, (clean_cons (by decide) (clean_cons (by decide) (clean_cons (by decide) (clean_cons (clean_nib (by decide)) clean_nil))))⟩)
    ⟨by simp, by simp⟩

theorem FrameShape.zoomWideVar (h : Header) (value : Nibble) :
    FrameShape.Statement (.zoomWideVar h value) :=
  frameShape_of h ([0x01, 0x04, 0x07, nib 0x3 value]) rfl (fun hw => ⟨hw, (clean_cons (by decide) (clean_cons (by decide) (clean_cons (by decide) (clean_cons (clean_nib (by decide)) clean_nil))))⟩)
    ⟨by simp, by simp⟩

theorem FrameShape.focusStop (h : Header) :
    FrameShape.Statement (.focusStop h) :=
  frameShape_of h ([0x01, 0x04, 0x08, 0x00]) rfl (fun hw => ⟨hw, (clean_cons (by decide) (clean_cons (by decide) (clean_cons (by decide) (clean_cons (by decide) clean_nil))))⟩) (by decide)

theorem FrameShape.focusFar (h : Header) :
    FrameShape.Statement (.focusFar h) :=
  frameShape_of h ([0x01, 0x04, 0x08, 0x02]) rfl (fun hw => ⟨hw, (clean_cons (by decide) (clean_cons (by decide) (clean_cons (by decide) (clean_cons (by decide) clean_nil))))⟩) (by decide)

theorem FrameShape.focusNear (h : Header) :
    FrameShape.Statement (.focusNear h) :=
  frameShape_of h ([0x01, 0x04, 0x08, 0x03]) rfl (fun hw => ⟨hw, (clean_cons (by decide) (clean_cons (by decide) (clean_cons (by decide) (clean_cons (by decide) clean_nil))))⟩) (by decide)

theorem FrameShape.focusFarVar (h : Header) (value : Nibble) :
    FrameShape.Statement (.focusFarVar h value) :=
  frameShape_of h ([0x01, 0x04, 0x08, nib 0x2 value]) rfl (fun hw => ⟨hw, (clean_cons (by decide) (clean_cons (by decide) (clean_cons (by decide) (clean_cons (clean_nib (by decide)) clean_nil))))⟩)
    ⟨by simp, by simp⟩

theorem FrameShape.focusNearVar (h : Header) (value : Nibble) :
    FrameShape.Statement (.focusNearVar h value) :=
  frameShape_of h ([0x01, 0x04, 0x08, nib 0x3 value]) rfl (fun hw => ⟨hw, (clean_cons (by decide) (clean_cons (by decide) (clean_cons (by decide) (clean_cons (clean_nib (by decide)) clean_nil))))⟩)
    ⟨by simp, by simp⟩

theorem FrameShape.ptDrive (h : Header) (panSpeed tiltSpeed panDir tiltDir : Byte) :
    FrameShape.Statement (.ptDrive h panSpeed tiltSpeed panDir tiltDir) :=
  frameShape_of h ([0x01, 0x06, 0x01, panSpeed, tiltSpeed, panDir, tiltDir]) rfl
    (fun hw => by
      obtain ⟨hh, hpanSpeed, htiltSpeed, hpanDir, htiltDir⟩ : h.wf = true ∧ panSpeed ≠ terminator ∧ tiltSpeed ≠ terminator ∧ panDir ≠ terminator ∧ tiltDir ≠ terminator := by
        simpa [Instr.wf, fieldWf_iff, and_assoc] using hw
      exact ⟨hh, (clean_cons (by decide) (clean_cons (by decide) (clean_cons (by decide) (clean_cons hpanSpeed (clean_cons htiltSpeed (clean_cons hpanDir (clean_cons htiltDir clean_nil)))))))⟩)
    ⟨by simp, by simp⟩

theorem FrameShape.memoryRecall (h : Header) (index : Byte) :
    FrameShape.Statement (.memoryRecall h index) :=
  frameShape_of h ([0x01, 0x04, 0x3F, 0x02, index]) rfl
    (fun hw => by
      obtain ⟨hh, hindex⟩ : h.wf = true ∧ index ≠ terminator := by
        simpa [Instr.wf, fieldWf_iff, and_assoc] using hw
      exact ⟨hh, (clean_cons (by decide) (clean_cons (by decide) (clean_cons (by decide) (clean_cons (by decide) (clean_cons hindex clean_nil)))))⟩)
    ⟨by simp, by simp⟩

theorem FrameShape.memorySet (h : Header) (index : Byte) :
    FrameShape.Statement (.memorySet h index) :=
  frameShape_of h ([0x01, 0x04, 0x3F, 0x01, index]) rfl
    (fun hw => by
      obtain ⟨hh, hindex⟩ : h.wf = true ∧ index ≠ terminator := by
        simpa [Instr.wf, fieldWf_iff, and_assoc] using hw
      exact ⟨hh, (clean_cons (by decide) (clean_cons (by decide) (clean_cons (by decide) (clean_cons (by decide) (clean_cons hindex clean_nil)))))⟩)
    ⟨by simp, by simp⟩

theorem FrameShape.clear (h : Header) :
    FrameShape.Statement (.clear h) :=
  frameShape_of h ([0x01, 0x00, 0x01]) rfl (fun hw => ⟨hw, (clean_cons (by decide) (clean_cons (by decide) (clean_cons (by decide) clean_nil)))⟩) (by decide)

theorem FrameShape.motionSync (h : Header) (value : Byte) :
    FrameShape.Statement (.motionSync h value) :=
  frameShape_of h ([0x0A, 0x11, 0x13, value]) rfl
    (fun hw => by
      obtain ⟨hh, hvalue⟩ : h.wf = true ∧ value ≠ terminator := by
        simpa [Instr.wf, fieldWf_iff, and_assoc] using hw
      exact ⟨hh, (clean_cons (by decide) (clean_cons (by decide) (clean_cons (by decide) (clean_cons hvalue clean_nil))))⟩)
    ⟨by simp, by simp⟩

theorem FrameShape.presetSpeed (h : Header) (value : Byte) :
    FrameShape.Statement (.presetSpeed h value) :=
  frameShape_of h ([0x01, 0x06, 0x01, value]) rfl
    (fun hw => by
      obtain ⟨hh, hvalue⟩ : h.wf = true ∧ value ≠ terminator := by
        simpa [Instr.wf, fieldWf_iff, and_assoc] using hw
      exact ⟨hh, (clean_cons (by decide) (clean_cons (by decide) (clean_cons (by decide) (clean_cons hvalue clean_nil))))⟩)
    ⟨by simp, by simp⟩

theorem FrameShape.ptAbs (h : Header) (panSpeed tiltSpeed : Byte) (panPos tiltPos : Half) :
    FrameShape.Statement (.ptAbs h panSpeed tiltSpeed panPos tiltPos) :=
  frameShape_of h ([0x01, 0x06, 0x02, panSpeed, tiltSpeed] ++ digits4 panPos ++ digits4 tiltPos) rfl
    (fun hw => by
      obtain ⟨hh, hpanSpeed, htiltSpeed⟩ : h.wf = true ∧ panSpeed ≠ terminator ∧ tiltSpeed ≠ terminator := by
        simpa [Instr.wf, fieldWf_iff, and_assoc] using hw
      exact ⟨hh, (clean_append (clean_append (clean_cons (by decide) (clean_cons (by decide) (clean_cons (by decide) (clean_cons hpanSpeed (clean_cons htiltSpeed clean_nil))))) (terminator_not_mem_digits4 panPos)) (terminator_not_mem_digits4 tiltPos))⟩)
    ⟨by simp, by simp⟩

theorem FrameShape.ptRel (h : Header) (panSpeed tiltSpeed : Byte) (panPos tiltPos : Half) :
    FrameShape.Statement (.ptRel h panSpeed tiltSpeed panPos tiltPos) :=
  frameShape_of h ([0x01, 0x06, 0x03, panSpeed, tiltSpeed] ++ digits4 panPos ++ digits4 tiltPos) rfl
    (fun hw => by
      obtain ⟨hh, hpanSpeed, htiltSpeed⟩ : h.wf = true ∧ panSpeed ≠ terminator ∧ tiltSpeed ≠ terminator := by
        simpa [Instr.wf, fieldWf_iff, and_assoc] using hw
      exact ⟨hh, (clean_append (clean_append (clean_cons (by decide) (clean_cons (by decide) (clean_cons (by decide) (clean_cons hpanSpeed (clean_cons htiltSpeed clean_nil))))) (terminator_not_mem_digits4 panPos)) (terminator_not_mem_digits4 tiltPos))⟩)
    ⟨by simp, by simp⟩

theorem FrameShape.ptHome (h : Header) :
    FrameShape.Statement (.ptHome h) :=
  frameShape_of h ([0x01, 0x06, 0x04]) rfl (fun hw => ⟨hw, (clean_cons (by decide) (clean_cons (by decide) (clean_cons (by decide) clean_nil)))⟩) (by decide)

theorem FrameShape.ptReset (h : Header) :
    FrameShape.Statement (.ptReset h) :=
  frameShape_of h ([0x01, 0x06, 0x05]) rfl (fun hw => ⟨hw, (clean_cons (by decide) (clean_cons (by decide) (clean_cons (by decide) clean_nil)))⟩) (by decide)

theorem FrameShape.cancel (h : Header) (socket : Nibble) :
    FrameShape.Statement (.cancel h socket) :=
  frameShape_of h ([nib 0x2 socket]) rfl (fun hw => ⟨hw, (clean_cons (clean_nib (by decide)) clean_nil)⟩)
    ⟨by simp, by simp⟩

theorem FrameShape.menuEnter (h : Header) :
    FrameShape.Statement (.menuEnter h) :=
  frameShape_of h ([0x01, 0x06, 0x06, 0x05]) rfl (fun hw => ⟨hw, (clean_cons (by decide) (clean_cons (by decide) (clean_cons (by decide) (clean_cons (by decide) clean_nil))))⟩) (by decide)

theorem FrameShape.menuEnterVariant (h : Header) :
    FrameShape.Statement (.menuEnterVariant h) :=
  frameShape_of h ([0x01, 0x7E, 0x01, 0x02, 0x00, 0x01]) rfl (fun hw => ⟨hw, (clean_cons (by decide) (clean_cons (by decide) (clean_cons (by decide) (clean_cons (by decide) (clean_cons (by decide) (clean_cons (by decide) clean_nil))))))⟩) (by decide)

theorem FrameShape.menuReturn (h : Header) :
    FrameShape.Statement (.menuReturn h) :=
  frameShape_of h ([0x01, 0x06, 0x06, 0x04]) rfl (fun hw => ⟨hw, (clean_cons (by decide) (clean_cons (by decide) (clean_cons (by decide) (clean_cons (by decide) clean_nil))))⟩) (by decide)

theorem FrameShape.menuMode (h : Header) (value : Byte) :
    FrameShape.Statement (.menuMode h value) :=
  frameShape_of h ([0x01, 0x06, 0x06, value]) rfl
    (fun hw => by
      obtain ⟨hh, hvalue⟩ : h.wf = true ∧ value ≠ terminator := by
        simpa [Instr.wf, fieldWf_iff, and_assoc] using hw
      exact ⟨hh, (clean_cons (by decide) (clean_cons (by decide) (clean_cons (by decide) (clean_cons hvalue clean_nil))))⟩)
    ⟨by simp, by simp⟩

theorem FrameShape.menuModeInq (h : Header) :
    FrameShape.Statement (.menuModeInq h) :=
  frameShape_of h ([0x09, 0x06, 0x06]) rfl (fun hw => ⟨hw, (clean_cons (by decide) (clean_cons (by decide) (clean_cons (by decide) clean_nil)))⟩) (by decide)

theorem FrameShape.brightPosDirect (h : Header) (value : Half) :
    FrameShape.Statement (.brightPosDirect h value) :=
  frameShape_of h ([0x01, 0x04, 0x4D] ++ digits4 value) rfl (fun hw => ⟨hw, (clean_append (clean_cons (by decide) (clean_cons (by decide) (clean_cons (by decide) clean_nil))) (terminator_not_mem_digits4 value))⟩)
    ⟨by simp, by simp⟩

theorem FrameShape.brightPosInq (h : Header) :
    FrameShape.Statement (.brightPosInq h) :=
  frameShape_of h ([0x09, 0x04, 0x4D]) rfl (fun hw => ⟨hw, (clean_cons (by decide) (clean_cons (by decide) (clean_cons (by decide) clean_nil)))⟩) (by decide)

theorem FrameShape.colorTempDirect (h : Header) (value : Byte) :
    FrameShape.Statement (.colorTempDirect h value) :=
  frameShape_of h ([0x01, 0x04, 0x20] ++ digits2 value) rfl (fun hw => ⟨hw, (clean_append (clean_cons (by decide) (clean_cons (by decide) (clean_cons (by decide) clean_nil))) (terminator_not_mem_digits2 value))⟩)
    ⟨by simp, by simp⟩

theorem FrameShape.colorTempInq (h : Header) :
    FrameShape.Statement (.colorTempInq h) :=
  frameShape_of h ([0x09, 0x04, 0x20]) rfl (fun hw => ⟨hw, (clean_cons (by decide) (clean_cons (by decide) (clean_cons (by decide) clean_nil)))⟩) (by decide)

theorem FrameShape.flicker (h : Header) (value : Nibble) :
    FrameShape.Statement (.flicker h value) :=
  frameShape_of h ([0x01, 0x04, 0x23, nib 0x0 value]) rfl (fun hw => ⟨hw, (clean_cons (by decide) (clean_cons (by decide) (clean_cons (by decide) (clean_cons (clean_nib (by decide)) clean_nil))))⟩)
    ⟨by simp, by simp⟩

theorem FrameShape.flickerInq (h : Header) :
    FrameShape.Statement (.flickerInq h) :=
  frameShape_of h ([0x09, 0x04, 0x23]) rfl (fun hw => ⟨hw, (clean_cons (by decide) (clean_cons (by decide) (clean_cons (by decide) clean_nil)))⟩) (by decide)

theorem FrameShape.gainLimit (h : Header) (value : Nibble) :
    FrameShape.Statement (.gainLimit h value) :=
  frameShape_of h ([0x01, 0x04, 0x2C, nib 0x0 value]) rfl (fun hw => ⟨hw, (clean_cons (by decide) (clean_cons (by decide) (clean_cons (by decide) (clean_cons (clean_nib (by decide)) clean_nil))))⟩)
    ⟨by simp, by simp⟩

theorem FrameShape.gainLimitInq (h : Header) :
    FrameShape.Statement (.gainLimitInq h) :=
  frameShape_of h ([0x09, 0x04, 0x2C]) rfl (fun hw => ⟨hw, (clean_cons (by decide) (clean_cons (by decide) (clean_cons (by decide) clean_nil)))⟩) (by decide)

theorem FrameShape.wbMode (h : Header) (value : Nibble) :
    FrameShape.Statement (.wbMode h value) :=
  frameShape_of h ([0x01, 0x04, 0x35, nib 0x0 value]) rfl (fun hw => ⟨hw, (clean_cons (by decide) (clean_cons (by decide) (clean_cons (by decide) (clean_cons (clean_nib (by decide)) clean_nil))))⟩)
    ⟨by simp, by simp⟩

theorem FrameShape.wbModeInq (h : Header) :
    FrameShape.Statement (.wbModeInq h) :=
  frameShape_of h ([0x09, 0x04, 0x35]) rfl (fun hw => ⟨hw, (clean_cons (by decide) (clean_cons (by decide) (clean_cons (by decide) clean_nil)))⟩) (by decide)

theorem FrameShape.focusAuto (h : Header) :
    FrameShape.Statement (.focusAuto h) :=
  frameShape_of h ([0x01, 0x04, 0x38, 0x02]) rfl (fun hw => ⟨hw, (clean_cons (by decide) (clean_cons (by decide) (clean_cons (by decide) (clean_cons (by decide) clean_nil))))⟩) (by decide)

theorem FrameShape.focusManual (h : Header) :
    FrameShape.Statement (.focusManual h) :=
  frameShape_of h ([0x01, 0x04, 0x38, 0x03]) rfl (fun hw => ⟨hw, (clean_cons (by decide) (clean_cons (by decide) (clean_cons (by decide) (clean_cons (by decide) clean_nil))))⟩) (by decide)

theorem FrameShape.focusModeInq (h : Header) :
    FrameShape.Statement (.focusModeInq h) :=
  frameShape_of h ([0x09, 0x04, 0x38]) rfl (fun hw => ⟨hw, (clean_cons (by decide) (clean_cons (by decide) (clean_cons (by decide) clean_nil)))⟩) (by decide)

theorem FrameShape.aeMode (h : Header) (value : Byte) :
    FrameShape.Statement (.aeMode h value) :=
  frameShape_of h ([0x01, 0x04, 0x39, value]) rfl
    (fun hw => by
      obtain ⟨hh, hvalue⟩ : h.wf = true ∧ value ≠ terminator := by
        simpa [Instr.wf, fieldWf_iff, and_assoc] using hw
      exact ⟨hh, (clean_cons (by decide) (clean_cons (by decide) (clean_cons (by decide) (clean_cons hvalue clean_nil))))⟩)
    ⟨by simp, by simp⟩

theorem FrameShape.aeModeInq (h : Header) :
    FrameShape.Statement (.aeModeInq h) :=
  frameShape_of h ([0x09, 0x04, 0x39]) rfl (fun hw => ⟨hw, (clean_cons (by decide) (clean_cons (by decide) (clean_cons (by decide) clean_nil)))⟩) (by decide)

theorem FrameShape.apertureDirect (h : Header) (value : Half) :
    FrameShape.Statement (.apertureDirect h value) :=
  frameShape_of h ([0x01, 0x04, 0x42] ++ digits4 value) rfl (fun hw => ⟨hw, (clean_append (clean_cons (by decide) (clean_cons (by decide) (clean_cons (by decide) clean_nil))) (terminator_not_mem_digits4 value))⟩)
    ⟨by simp, by simp⟩

theorem FrameShape.apertureInq (h : Header) :
    FrameShape.Statement (.apertureInq h) :=
  frameShape_of h ([0x09, 0x04, 0x42]) rfl (fun hw => ⟨hw, (clean_cons (by decide) (clean_cons (by decide) (clean_cons (by decide) clean_nil)))⟩) (by decide)

theorem FrameShape.rgainDirect (h : Header) (value : Half) :
    FrameShape.Statement (.rgainDirect h value) :=
  frameShape_of h ([0x01, 0x04, 0x43] ++ digits4 value) rfl (fun hw => ⟨hw, (clean_append (clean_cons (by decide) (clean_cons (by decide) (clean_cons (by decide) clean_nil))) (terminator_not_mem_digits4 value))⟩)
    ⟨by simp, by simp⟩

theorem FrameShape.rgainInq (h : Header) :
    FrameShape.Statement (.rgainInq h) :=
  frameShape_of h ([0x09, 0x04, 0x43]) rfl (fun hw => ⟨hw, (clean_cons (by decide) (clean_cons (by decide) (clean_cons (by decide) clean_nil)))⟩) (by decide)

theorem FrameShape.bgainDirect (h : Header) (value : Half) :
    FrameShape.Statement (.bgainDirect h value) :=
  frameShape_of h ([0x01, 0x04, 0x44] ++ digits4 value) rfl (fun hw => ⟨hw, (clean_append (clean_cons (by decide) (clean_cons (by decide) (clean_cons (by decide) clean_nil))) (terminator_not_mem_digits4 value))⟩)
    ⟨by simp, by simp⟩

theorem FrameShape.bgainInq (h : Header) :
    FrameShape.Statement (.bgainInq h) :=
  frameShape_of h ([0x09, 0x04, 0x44]) rfl (fun hw => ⟨hw, (clean_cons (by decide) (clean_cons (by decide) (clean_cons (by decide) clean_nil)))⟩) (by decide)

theorem FrameShape.zoomDirect (h : Header) (value : Half) :
    FrameShape.Statement (.zoomDirect h value) :=
  frameShape_of h ([0x01, 0x04, 0x47] ++ digits4 value) rfl (fun hw => ⟨hw, (clean_append (clean_cons (by decide) (clean_cons (by decide) (clean_cons (by decide) clean_nil))) (terminator_not_mem_digits4 value))⟩)
    ⟨by simp, by simp⟩

theorem FrameShape.zoomPosInq (h : Header) :
    FrameShape.Statement (.zoomPosInq h) :=
  frameShape_of h ([0x09, 0x04, 0x47]) rfl (fun hw => ⟨hw, (clean_cons (by decide) (clean_cons (by decide) (clean_cons (by decide) clean_nil)))⟩) (by decide)

theorem FrameShape.focusDirect (h : Header) (value : Half) :
    FrameShape.Statement (.focusDirect h value) :=
  frameShape_of h ([0x01, 0x04, 0x48] ++ digits4 value) rfl (fun hw => ⟨hw, (clean_append (clean_cons (by decide) (clean_cons (by decide) (clean_cons (by decide) clean_nil))) (terminator_not_mem_digits4 value))⟩)
    ⟨by simp, by simp⟩

theorem FrameShape.focusPosInq (h : Header) :
    FrameShape.Statement (.focusPosInq h) :=
  frameShape_of h ([0x09, 0x04, 0x48]) rfl (fun hw => ⟨hw, (clean_cons (by decide) (clean_cons (by decide) (clean_cons (by decide) clean_nil)))⟩) (by decide)

theorem FrameShape.colorGainDirect (h : Header) (value : Half) :
    FrameShape.Statement (.colorGainDirect h value) :=
  frameShape_of h ([0x01, 0x04, 0x49] ++ digits4 value) rfl (fun hw => ⟨hw, (clean_append (clean_cons (by decide) (clean_cons (by decide) (clean_cons (by decide) clean_nil))) (terminator_not_mem_digits4 value))⟩)
    ⟨by simp, by simp⟩

theorem FrameShape.colorGainInq (h : Header) :
    FrameShape.Statement (.colorGainInq h) :=
  frameShape_of h ([0x09, 0x04, 0x49]) rfl (fun hw => ⟨hw, (clean_cons (by decide) (clean_cons (by decide) (clean_cons (by decide) clean_nil)))⟩) (by decide)

theorem FrameShape.shutterDirect (h : Header) (value : Half) :
    FrameShape.Statement (.shutterDirect h value) :=
  frameShape_of h ([0x01, 0x04, 0x4A] ++ digits4 value) rfl (fun hw => ⟨hw, (clean_append (clean_cons (by decide) (clean_cons (by decide) (clean_cons (by decide) clean_nil))) (terminator_not_mem_digits4 value))⟩)
    ⟨by simp, by simp⟩

theorem FrameShape.shutterInq (h : Header) :
    FrameShape.Statement (.shutterInq h) :=
  frameShape_of h ([0x09, 0x04, 0x4A]) rfl (fun hw => ⟨hw, (clean_cons (by decide) (clean_cons (by decide) (clean_cons (by decide) clean_nil)))⟩) (by decide)

theorem FrameShape.irisDirect (h : Header) (value : Half) :
    FrameShape.Statement (.irisDirect h value) :=
  frameShape_of h ([0x01, 0x04, 0x4B] ++ digits4 value) rfl (fun hw => ⟨hw, (clean_append (clean_cons (by decide) (clean_cons (by decide) (clean_cons (by decide) clean_nil))) (terminator_not_mem_digits4 value))⟩)
    ⟨by simp, by simp⟩

theorem FrameShape.irisInq (h : Header) :
    FrameShape.Statement (.irisInq h) :=
  frameShape_of h ([0x09, 0x04, 0x4B]) rfl (fun hw => ⟨hw, (clean_cons (by decide) (clean_cons (by decide) (clean_cons (by decide) clean_nil)))⟩) (by decide)

theorem FrameShape.colorHueDirect (h : Header) (value : Half) :
    FrameShape.Statement (.colorHueDirect h value) :=
  frameShape_of h ([0x01, 0x04, 0x4F] ++ digits4 value) rfl (fun hw => ⟨hw, (clean_append (clean_cons (by decide) (clean_cons (by decide) (clean_cons (by decide) clean_nil))) (terminator_not_mem_digits4 value))⟩)
    ⟨by simp, by simp⟩

theorem FrameShape.colorHueInq (h : Header) :
    FrameShape.Statement (.colorHueInq h) :=
  frameShape_of h ([0x09, 0x04, 0x4F]) rfl (fun hw => ⟨hw, (clean_cons (by decide) (clean_cons (by decide) (clean_cons (by decide) clean_nil)))⟩) (by decide)

theorem FrameShape.lrReverse (h : Header) (value : Byte) :
    FrameShape.Statement (.lrReverse h value) :=
  frameShape_of h ([0x01, 0x04, 0x61, value]) rfl
    (fun hw => by
      obtain ⟨hh, hvalue⟩ : h.wf = true ∧ value ≠ terminator := by
        simpa [Instr.wf, fieldWf_iff, and_assoc] using hw
      exact ⟨hh, (clean_cons (by decide) (clean_cons (by decide) (clean_cons (by decide) (clean_cons hvalue clean_nil))))⟩)
    ⟨by simp, by simp⟩

theorem FrameShape.lrReverseInq (h : Header) :
    FrameShape.Statement (.lrReverseInq h) :=
  frameShape_of h ([0x09, 0x04, 0x61]) rfl (fun hw => ⟨hw, (clean_cons (by decide) (clean_cons (by decide) (clean_cons (by decide) clean_nil)))⟩) (by decide)

theorem FrameShape.pictureEffect (h : Header) (value : Byte) :
    FrameShape.Statement (.pictureEffect h value) :=
  frameShape_of h ([0x01, 0x04, 0x63, value]) rfl
    (fun hw => by
      obtain ⟨hh, hvalue⟩ : h.wf = true ∧ value ≠ terminator := by
        simpa [Instr.wf, fieldWf_iff, and_assoc] using hw
      exact ⟨hh, (clean_cons (by decide) (clean_cons (by decide) (clean_cons (by decide) (clean_cons hvalue clean_nil))))⟩)
    ⟨by simp, by simp⟩

theorem FrameShape.pictureEffectInq (h : Header) :
    FrameShape.Statement (.pictureEffectInq h) :=
  frameShape_of h ([0x09, 0x04, 0x63]) rfl (fun hw => ⟨hw, (clean_cons (by decide) (clean_cons (by decide) (clean_cons (by decide) clean_nil)))⟩) (by decide)

theorem FrameShape.pictureFlip (h : Header) (value : Byte) :
    FrameShape.Statement (.pictureFlip h value) :=
  frameShape_of h ([0x01, 0x04, 0x66, value]) rfl
    (fun hw => by
      obtain ⟨hh, hvalue⟩ : h.wf = true ∧ value ≠ terminator := by
        simpa [Instr.wf, fieldWf_iff, and_assoc] using hw
      exact ⟨hh, (clean_cons (by decide) (clean_cons (by decide) (clean_cons (by decide) (clean_cons hvalue clean_nil))))⟩)
    ⟨by simp, by simp⟩

theorem FrameShape.pictureFlipInq (h : Header) :
    FrameShape.Statement (.pictureFlipInq h) :=
  frameShape_of h ([0x09, 0x04, 0x66]) rfl (fun hw => ⟨hw, (clean_cons (by decide) (clean_cons (by decide) (clean_cons (by decide) clean_nil)))⟩) (by decide)

theorem FrameShape.brightnessDirect (h : Header) (value : Half) :
    FrameShape.Statement (.brightnessDirect h value) :=
  frameShape_of h ([0x01, 0x04, 0xA1] ++ digits4 value) rfl (fun hw => ⟨hw, (clean_append (clean_cons (by decide) (clean_cons (by decide) (clean_cons (by decide) clean_nil))) (terminator_not_mem_digits4 value))⟩)
    ⟨by simp, by simp⟩

theorem FrameShape.brightnessInq (h : Header) :
    FrameShape.Statement (.brightnessInq h) :=
  frameShape_of h ([0x09, 0x04, 0xA1]) rfl (fun hw => ⟨hw, (clean_cons (by decide) (clean_cons (by decide) (clean_cons (by decide) clean_nil)))⟩) (by decide)

theorem FrameShape.contrastDirect (h : Header) (value : Half) :
    FrameShape.Statement (.contrastDirect h value) :=
  frameShape_of h ([0x01, 0x04, 0xA2] ++ digits4 value) rfl (fun hw => ⟨hw, (clean_append (clean_cons (by decide) (clean_cons (by decide) (clean_cons (by decide) clean_nil))) (terminator_not_mem_digits4 value))⟩)
    ⟨by simp, by simp⟩

theorem FrameShape.contrastInq (h : Header) :
    FrameShape.Statement (.contrastInq h) :=
  frameShape_of h ([0x09, 0x04, 0xA2]) rfl (fun hw => ⟨hw, (clean_cons (by decide) (clean_cons (by decide) (clean_cons (by decide) clean_nil)))⟩) (by decide)

theorem FrameShape.awbSens (h : Header) (value : Nibble) :
    FrameShape.Statement (.awbSens h value) :=
  frameShape_of h ([0x01, 0x04, 0xA9, nib 0x0 value]) rfl (fun hw => ⟨hw, (clean_cons (by decide) (clean_cons (by decide) (clean_cons (by decide) (clean_cons (clean_nib (by decide)) clean_nil))))⟩)
    ⟨by simp, by simp⟩

theorem FrameShape.awbSensInq (h : Header) :
    FrameShape.Statement (.awbSensInq h) :=
  frameShape_of h ([0x09, 0x04, 0xA9]) rfl (fun hw => ⟨hw, (clean_cons (by decide) (clean_cons (by decide) (clean_cons (by decide) clean_nil)))⟩) (by decide)

theorem FrameShape.extract (buf : List Byte) : FrameShape.Statement (.extract buf) := frameShape_request rfl

theorem FrameShape.serialize (sender receiver : Byte) (payload : List Byte) (out : OutBuffer) :
    FrameShape.Statement (.serialize sender receiver payload out) := frameShape_request rfl

theorem FrameShape.classify (payload : List Byte) : FrameShape.Statement (.classify payload) := frameShape_request rfl

theorem FrameShape.template (kind : Kind) : FrameShape.Statement (.template kind) := frameShape_request rfl

theorem FrameShape.codec (dir : Dir) (c : CodecId) (work : List Byte) (prm : Params) : FrameShape.Statement (.codec dir c work prm) := frameShape_request rfl

theorem FrameShape.decode (buf : List Byte) : FrameShape.Statement (.decode buf) := frameShape_request rfl

theorem FrameShape.encode (kind : Kind) (prm : Params) (sender receiver : Byte) (out : OutBuffer) :
    FrameShape.Statement (.encode kind prm sender receiver out) := frameShape_request rfl

end Sys2Proof.Laws
end

