-- ==== Sys2Proof/Laws/Step.lean ====
section
/-! SUPPORT. The meanings of the messages read through one pass of POLL, the passes by their decode outcome, and
runs of several steps. -/

namespace Sys2Proof.Machine

/-- A message is one pass of POLL's loop over its own bytes. -/
theorem exec_wire (i : Instr) (s : State) (h : wireBytes i ≠ []) : exec i s = pollOnce (wireBytes i) s := by
  cases i <;> first | rfl | exact absurd rfl h

/-- A message's bytes are a frame. -/
theorem wireBytes_frame (i : Instr) (h : wireBytes i ≠ []) : ∃ hd p, wireBytes i = frame hd p := by
  cases i <;> first | exact ⟨_, _, rfl⟩ | exact absurd rfl h

/-- R277: the outcome of a pass, by the answer of DECODE. -/
theorem pollOnce_hit {s : State} (hw : s.cfg.wf = true) (ho : s.conn = .opened) {bytes : List Byte} {n snd rcv k prm}
    (h : vcuDecode s.cfg bytes = .ok (.hit n snd rcv k prm)) :
    pollOnce bytes s = .next (delivered s n.toNat ⟨k, prm, snd, rcv⟩) := by
  simp [pollOnce, whenConfigured, hw, ho, h, pollCase, DecodeResponse.hit, readField, bind, Except.bind, delivered,
    State.emit, State.advance]

theorem pollOnce_noRow {s : State} (hw : s.cfg.wf = true) (ho : s.conn = .opened) {bytes : List Byte} {n snd rcv}
    (h : vcuDecode s.cfg bytes = .ok (.noRow n snd rcv)) :
    pollOnce bytes s = .next (skipped s n.toNat snd rcv ((bytes.drop 1).take (n.toNat - 2))) := by
  simp [pollOnce, whenConfigured, hw, ho, h, pollCase, DecodeResponse.noRow, readField, bind, Except.bind, skipped,
    State.emit, State.advance]

theorem pollOnce_bad {s : State} (hw : s.cfg.wf = true) (ho : s.conn = .opened) {bytes : List Byte} {why}
    (h : vcuDecode s.cfg bytes = .ok (.bad why)) :
    pollOnce bytes s = .next (closedWith s (.corrupt s.cur why)) := by
  simp [pollOnce, whenConfigured, hw, ho, h, pollCase, DecodeResponse.bad, readField, bind, Except.bind, closedWith,
    State.emit, State.shut, State.withTask]

theorem pollOnce_incomplete {s : State} (hw : s.cfg.wf = true) (ho : s.conn = .opened) {bytes : List Byte}
    (h : terminator ∉ bytes) : pollOnce bytes s = .next (endPoll s) := by
  simp [pollOnce, whenConfigured, hw, ho, vcuDecode_incomplete s.cfg bytes h, pollCase, DecodeResponse.needMore]

theorem pollOnce_closed {s : State} (hw : s.cfg.wf = true) (ho : s.conn = .closed) (bytes : List Byte) :
    pollOnce bytes s = .next { s with task := .idle } := by
  simp [pollOnce, whenConfigured, hw, ho, State.withTask]

/-- A header's fields as EXTRACT reads them. -/
theorem header_fields (h : Header) : h.byte.extractLsb' 4 3 = h.sender ∧ h.byte.extractLsb' 0 4 = h.receiver := by
  have all : ∀ (m : BitVec 1) (s : BitVec 3) (r : BitVec 4),
      (Header.mk m s r).byte.extractLsb' 4 3 = s ∧ (Header.mk m s r).byte.extractLsb' 0 4 = r := by decide
  exact all h.marker h.sender h.receiver

/-! ## Runs -/

/-- A run's first step. -/
theorem run_succ (k : Nat) (s : State) :
    Host.Core.run ⟨State, Fault, Refusal, step, State.reset⟩ (k + 1) s =
      match step s with
      | .next t => Host.Core.run ⟨State, Fault, Refusal, step, State.reset⟩ k t
      | .fault f => .fault f
      | .refused r => .refused r := by
  rw [Host.Core.run]
  split <;> next heq =>
    have h : step s = _ := heq
    rw [h]

/-- Two runs in a row. -/
theorem run_add {j k : Nat} {s t : State}
    (h : Host.Core.run ⟨State, Fault, Refusal, step, State.reset⟩ j s = .next t) :
    Host.Core.run ⟨State, Fault, Refusal, step, State.reset⟩ (j + k) s =
      Host.Core.run ⟨State, Fault, Refusal, step, State.reset⟩ k t := by
  induction j generalizing s with
  | zero => cases h; simp
  | succ j ih =>
    rw [show j + 1 + k = (j + k) + 1 by omega, run_succ]
    rw [run_succ] at h
    generalize step s = x at h ⊢
    cases x with
    | next u => exact ih h
    | fault f => cases h
    | refused r => cases h

end Sys2Proof.Machine
end

