-- ==== Sys2Proof/Tests/Slice0.lean ====
section
/-! SUPPORT. The model's own tests: the well-formedness checks, the decoding of words written out from the rows'
encodings, one step on a small state, and for each statement of Certificates/Slice0/Obligations.lean that has
hypotheses a state and operands that meet them. Expected values are those of spec/. -/

namespace Sys2Proof.Machine

/-! ## Helpers -/

/-- The next state of an outcome. -/
def after (r : Result) : Option State :=
  match r with
  | .next s => some s
  | .fault _ | .refused _ => none

theorem after_eq {r : Result} {s : State} (h : after r = some s) : r = .next s := by
  cases r with
  | next t => simpa [after] using h
  | fault f => cases h
  | refused f => cases h

/-- Why an outcome is refused. -/
def refusal (r : Result) : Option Refusal :=
  match r with
  | .refused why => some why
  | .next _ | .fault _ => none

/-- A payload of CAP bytes in the reference configuration. -/
def capPayload : List Byte := List.replicate 14 0x11

/-- A payload one byte longer than CAP. -/
def longPayload : List Byte := List.replicate 15 0x11

/-- The reset state with a POLL of a RECV under way over the given bytes. -/
def polling (bytes : List Byte) : State := { State.reset with rx := bytes, task := .receiving }

/-- The reset state with one input presented. -/
def presented (i : Input) : State := { State.reset with inputs := [i] }

/-- The frame of ACK, socket 1 (R178). -/
def ackFrame : List Byte := [0x90, 0x41, 0xFF]

theorem reset_ready : State.reset.refReady := ⟨by decide +kernel, rfl, rfl⟩

theorem reset_configured : State.reset.refConfigured := ⟨by decide +kernel, rfl⟩

/-! ## Well-formedness -/

/-- R115: the header check, on every message. -/
theorem test_wf_refuses_header :
    ([.respByte ⟨1, 7, 15⟩ 0,
      .respP ⟨1, 7, 15⟩ 0,
      .respPQ ⟨1, 7, 15⟩ 0,
      .respPQRS ⟨1, 7, 15⟩ 0,
      .ptPosResp ⟨1, 7, 15⟩ 0 0,
      .ack ⟨1, 7, 15⟩ 0,
      .completion ⟨1, 7, 15⟩ 0,
      .error ⟨1, 7, 15⟩ 0 0,
      .camnumQuery ⟨1, 7, 15⟩,
      .camnumReply ⟨1, 7, 15⟩ 0,
      .ptPosInq ⟨1, 7, 15⟩,
      .zoomStop ⟨1, 7, 15⟩,
      .zoomTele ⟨1, 7, 15⟩,
      .zoomWide ⟨1, 7, 15⟩,
      .zoomTeleVar ⟨1, 7, 15⟩ 0,
      .zoomWideVar ⟨1, 7, 15⟩ 0,
      .focusStop ⟨1, 7, 15⟩,
      .focusFar ⟨1, 7, 15⟩,
      .focusNear ⟨1, 7, 15⟩,
      .focusFarVar ⟨1, 7, 15⟩ 0,
      .focusNearVar ⟨1, 7, 15⟩ 0,
      .ptDrive ⟨1, 7, 15⟩ 0 0 0 0,
      .memoryRecall ⟨1, 7, 15⟩ 0,
      .memorySet ⟨1, 7, 15⟩ 0,
      .clear ⟨1, 7, 15⟩,
      .motionSync ⟨1, 7, 15⟩ 0,
      .presetSpeed ⟨1, 7, 15⟩ 0,
      .ptAbs ⟨1, 7, 15⟩ 0 0 0 0,
      .ptRel ⟨1, 7, 15⟩ 0 0 0 0,
      .ptHome ⟨1, 7, 15⟩,
      .ptReset ⟨1, 7, 15⟩,
      .cancel ⟨1, 7, 15⟩ 0,
      .menuEnter ⟨1, 7, 15⟩,
      .menuEnterVariant ⟨1, 7, 15⟩,
      .menuReturn ⟨1, 7, 15⟩,
      .menuMode ⟨1, 7, 15⟩ 0,
      .menuModeInq ⟨1, 7, 15⟩,
      .brightPosDirect ⟨1, 7, 15⟩ 0,
      .brightPosInq ⟨1, 7, 15⟩,
      .colorTempDirect ⟨1, 7, 15⟩ 0,
      .colorTempInq ⟨1, 7, 15⟩,
      .flicker ⟨1, 7, 15⟩ 0,
      .flickerInq ⟨1, 7, 15⟩,
      .gainLimit ⟨1, 7, 15⟩ 0,
      .gainLimitInq ⟨1, 7, 15⟩,
      .wbMode ⟨1, 7, 15⟩ 0,
      .wbModeInq ⟨1, 7, 15⟩,
      .focusAuto ⟨1, 7, 15⟩,
      .focusManual ⟨1, 7, 15⟩,
      .focusModeInq ⟨1, 7, 15⟩,
      .aeMode ⟨1, 7, 15⟩ 0,
      .aeModeInq ⟨1, 7, 15⟩,
      .apertureDirect ⟨1, 7, 15⟩ 0,
      .apertureInq ⟨1, 7, 15⟩,
      .rgainDirect ⟨1, 7, 15⟩ 0,
      .rgainInq ⟨1, 7, 15⟩,
      .bgainDirect ⟨1, 7, 15⟩ 0,
      .bgainInq ⟨1, 7, 15⟩,
      .zoomDirect ⟨1, 7, 15⟩ 0,
      .zoomPosInq ⟨1, 7, 15⟩,
      .focusDirect ⟨1, 7, 15⟩ 0,
      .focusPosInq ⟨1, 7, 15⟩,
      .colorGainDirect ⟨1, 7, 15⟩ 0,
      .colorGainInq ⟨1, 7, 15⟩,
      .shutterDirect ⟨1, 7, 15⟩ 0,
      .shutterInq ⟨1, 7, 15⟩,
      .irisDirect ⟨1, 7, 15⟩ 0,
      .irisInq ⟨1, 7, 15⟩,
      .colorHueDirect ⟨1, 7, 15⟩ 0,
      .colorHueInq ⟨1, 7, 15⟩,
      .lrReverse ⟨1, 7, 15⟩ 0,
      .lrReverseInq ⟨1, 7, 15⟩,
      .pictureEffect ⟨1, 7, 15⟩ 0,
      .pictureEffectInq ⟨1, 7, 15⟩,
      .pictureFlip ⟨1, 7, 15⟩ 0,
      .pictureFlipInq ⟨1, 7, 15⟩,
      .brightnessDirect ⟨1, 7, 15⟩ 0,
      .brightnessInq ⟨1, 7, 15⟩,
      .contrastDirect ⟨1, 7, 15⟩ 0,
      .contrastInq ⟨1, 7, 15⟩,
      .awbSens ⟨1, 7, 15⟩ 0,
      .awbSensInq ⟨1, 7, 15⟩] : List Instr).all (fun i => !i.wf) = true := by
  decide

/-- R73, R114: the check of each full-byte field. -/
theorem test_wf_refuses_terminator_field :
    ([.respByte ⟨1, 0, 1⟩ 0xFF,
      .error ⟨1, 0, 1⟩ 0 0xFF,
      .ptDrive ⟨1, 0, 1⟩ 0xFF 0 0 0,
      .ptDrive ⟨1, 0, 1⟩ 0 0xFF 0 0,
      .ptDrive ⟨1, 0, 1⟩ 0 0 0xFF 0,
      .ptDrive ⟨1, 0, 1⟩ 0 0 0 0xFF,
      .memoryRecall ⟨1, 0, 1⟩ 0xFF,
      .memorySet ⟨1, 0, 1⟩ 0xFF,
      .motionSync ⟨1, 0, 1⟩ 0xFF,
      .presetSpeed ⟨1, 0, 1⟩ 0xFF,
      .ptAbs ⟨1, 0, 1⟩ 0xFF 0 0 0,
      .ptAbs ⟨1, 0, 1⟩ 0 0xFF 0 0,
      .ptRel ⟨1, 0, 1⟩ 0xFF 0 0 0,
      .ptRel ⟨1, 0, 1⟩ 0 0xFF 0 0,
      .menuMode ⟨1, 0, 1⟩ 0xFF,
      .aeMode ⟨1, 0, 1⟩ 0xFF,
      .lrReverse ⟨1, 0, 1⟩ 0xFF,
      .pictureEffect ⟨1, 0, 1⟩ 0xFF,
      .pictureFlip ⟨1, 0, 1⟩ 0xFF] : List Instr).all (fun i => !i.wf) = true := by
  decide

/-! ## Decoding -/

/-- 44_msg_replies.md, the worked example of each row. The word of RESP_P reads as RESP_BYTE (R174). -/
theorem test_reply_words_decode :
    ([[0x90, 0x50, 0x23, 0xFF],
      [0x90, 0x50, 0x03, 0xFF],
      [0x90, 0x50, 0x0A, 0x0B, 0xFF],
      [0x90, 0x50, 0x00, 0x0A, 0x0B, 0x0C, 0xFF],
      [0x90, 0x50, 0x00, 0x01, 0x02, 0x03, 0x0F, 0x0E, 0x0D, 0x0C, 0xFF],
      [0x90, 0x41, 0xFF],
      [0x90, 0x52, 0xFF],
      [0x90, 0x61, 0x02, 0xFF],
      [0x88, 0x30, 0x01, 0xFF],
      [0x88, 0x30, 0x02, 0xFF]].map fun w => decode (.wire w)) =
    ([.respByte ⟨1, 1, 0⟩ 0x23,
      .respByte ⟨1, 1, 0⟩ 0x3,
      .respPQ ⟨1, 1, 0⟩ 0xAB,
      .respPQRS ⟨1, 1, 0⟩ 0xABC,
      .ptPosResp ⟨1, 1, 0⟩ 0x0123 0xFEDC,
      .ack ⟨1, 1, 0⟩ 1,
      .completion ⟨1, 1, 0⟩ 2,
      .error ⟨1, 1, 0⟩ 1 0x02,
      .camnumQuery ⟨1, 0, 8⟩,
      .camnumReply ⟨1, 0, 8⟩ 2] : List Instr).map some := by
  decide +kernel

/-- 45_msg_ptz_lens.md, the worked example of each row. -/
theorem test_ptz_lens_words_decode :
    ([[0x81, 0x09, 0x06, 0x12, 0xFF],
      [0x81, 0x01, 0x04, 0x07, 0x00, 0xFF],
      [0x81, 0x01, 0x04, 0x07, 0x02, 0xFF],
      [0x81, 0x01, 0x04, 0x07, 0x03, 0xFF],
      [0x81, 0x01, 0x04, 0x07, 0x25, 0xFF],
      [0x81, 0x01, 0x04, 0x07, 0x35, 0xFF],
      [0x81, 0x01, 0x04, 0x08, 0x00, 0xFF],
      [0x81, 0x01, 0x04, 0x08, 0x02, 0xFF],
      [0x81, 0x01, 0x04, 0x08, 0x03, 0xFF],
      [0x81, 0x01, 0x04, 0x08, 0x25, 0xFF],
      [0x81, 0x01, 0x04, 0x08, 0x35, 0xFF],
      [0x81, 0x01, 0x06, 0x01, 0x18, 0x14, 0x01, 0x03, 0xFF],
      [0x81, 0x01, 0x04, 0x3F, 0x02, 0x05, 0xFF],
      [0x81, 0x01, 0x04, 0x3F, 0x01, 0x05, 0xFF],
      [0x81, 0x01, 0x00, 0x01, 0xFF],
      [0x81, 0x0A, 0x11, 0x13, 0x02, 0xFF],
      [0x81, 0x01, 0x06, 0x01, 0x02, 0xFF],
      [0x81, 0x01, 0x06, 0x02, 0x18, 0x14, 0x00, 0x01, 0x02, 0x03, 0x04, 0x05, 0x06, 0x07, 0xFF],
      [0x81, 0x01, 0x06, 0x03, 0x18, 0x14, 0x00, 0x01, 0x02, 0x03, 0x04, 0x05, 0x06, 0x07, 0xFF],
      [0x81, 0x01, 0x06, 0x04, 0xFF],
      [0x81, 0x01, 0x06, 0x05, 0xFF],
      [0x81, 0x23, 0xFF],
      [0x81, 0x01, 0x06, 0x06, 0x05, 0xFF],
      [0x81, 0x01, 0x7E, 0x01, 0x02, 0x00, 0x01, 0xFF],
      [0x81, 0x01, 0x06, 0x06, 0x04, 0xFF],
      [0x81, 0x01, 0x06, 0x06, 0x02, 0xFF],
      [0x81, 0x09, 0x06, 0x06, 0xFF]].map fun w => decode (.wire w)) =
    ([.ptPosInq ⟨1, 0, 1⟩,
      .zoomStop ⟨1, 0, 1⟩,
      .zoomTele ⟨1, 0, 1⟩,
      .zoomWide ⟨1, 0, 1⟩,
      .zoomTeleVar ⟨1, 0, 1⟩ 0x5,
      .zoomWideVar ⟨1, 0, 1⟩ 0x5,
      .focusStop ⟨1, 0, 1⟩,
      .focusFar ⟨1, 0, 1⟩,
      .focusNear ⟨1, 0, 1⟩,
      .focusFarVar ⟨1, 0, 1⟩ 0x5,
      .focusNearVar ⟨1, 0, 1⟩ 0x5,
      .ptDrive ⟨1, 0, 1⟩ 0x18 0x14 0x1 0x3,
      .memoryRecall ⟨1, 0, 1⟩ 5,
      .memorySet ⟨1, 0, 1⟩ 5,
      .clear ⟨1, 0, 1⟩,
      .motionSync ⟨1, 0, 1⟩ 0x2,
      .presetSpeed ⟨1, 0, 1⟩ 0x2,
      .ptAbs ⟨1, 0, 1⟩ 0x18 0x14 0x0123 0x4567,
      .ptRel ⟨1, 0, 1⟩ 0x18 0x14 0x0123 0x4567,
      .ptHome ⟨1, 0, 1⟩,
      .ptReset ⟨1, 0, 1⟩,
      .cancel ⟨1, 0, 1⟩ 3,
      .menuEnter ⟨1, 0, 1⟩,
      .menuEnterVariant ⟨1, 0, 1⟩,
      .menuReturn ⟨1, 0, 1⟩,
      .menuMode ⟨1, 0, 1⟩ 0x2,
      .menuModeInq ⟨1, 0, 1⟩] : List Instr).map some := by
  decide +kernel

/-- 46_msg_image.md, the worked example of each row. -/
theorem test_image_words_decode :
    ([[0x81, 0x01, 0x04, 0x4D, 0x01, 0x02, 0x03, 0x04, 0xFF],
      [0x81, 0x09, 0x04, 0x4D, 0xFF],
      [0x81, 0x01, 0x04, 0x20, 0x03, 0x0C, 0xFF],
      [0x81, 0x09, 0x04, 0x20, 0xFF],
      [0x81, 0x01, 0x04, 0x23, 0x05, 0xFF],
      [0x81, 0x09, 0x04, 0x23, 0xFF],
      [0x81, 0x01, 0x04, 0x2C, 0x05, 0xFF],
      [0x81, 0x09, 0x04, 0x2C, 0xFF],
      [0x81, 0x01, 0x04, 0x35, 0x05, 0xFF],
      [0x81, 0x09, 0x04, 0x35, 0xFF],
      [0x81, 0x01, 0x04, 0x38, 0x02, 0xFF],
      [0x81, 0x01, 0x04, 0x38, 0x03, 0xFF],
      [0x81, 0x09, 0x04, 0x38, 0xFF],
      [0x81, 0x01, 0x04, 0x39, 0x02, 0xFF],
      [0x81, 0x09, 0x04, 0x39, 0xFF],
      [0x81, 0x01, 0x04, 0x42, 0x01, 0x02, 0x03, 0x04, 0xFF],
      [0x81, 0x09, 0x04, 0x42, 0xFF],
      [0x81, 0x01, 0x04, 0x43, 0x01, 0x02, 0x03, 0x04, 0xFF],
      [0x81, 0x09, 0x04, 0x43, 0xFF],
      [0x81, 0x01, 0x04, 0x44, 0x01, 0x02, 0x03, 0x04, 0xFF],
      [0x81, 0x09, 0x04, 0x44, 0xFF],
      [0x81, 0x01, 0x04, 0x47, 0x01, 0x02, 0x03, 0x04, 0xFF],
      [0x81, 0x09, 0x04, 0x47, 0xFF],
      [0x81, 0x01, 0x04, 0x48, 0x01, 0x02, 0x03, 0x04, 0xFF],
      [0x81, 0x09, 0x04, 0x48, 0xFF],
      [0x81, 0x01, 0x04, 0x49, 0x01, 0x02, 0x03, 0x04, 0xFF],
      [0x81, 0x09, 0x04, 0x49, 0xFF],
      [0x81, 0x01, 0x04, 0x4A, 0x01, 0x02, 0x03, 0x04, 0xFF],
      [0x81, 0x09, 0x04, 0x4A, 0xFF],
      [0x81, 0x01, 0x04, 0x4B, 0x01, 0x02, 0x03, 0x04, 0xFF],
      [0x81, 0x09, 0x04, 0x4B, 0xFF],
      [0x81, 0x01, 0x04, 0x4F, 0x01, 0x02, 0x03, 0x04, 0xFF],
      [0x81, 0x09, 0x04, 0x4F, 0xFF],
      [0x81, 0x01, 0x04, 0x61, 0x02, 0xFF],
      [0x81, 0x09, 0x04, 0x61, 0xFF],
      [0x81, 0x01, 0x04, 0x63, 0x02, 0xFF],
      [0x81, 0x09, 0x04, 0x63, 0xFF],
      [0x81, 0x01, 0x04, 0x66, 0x02, 0xFF],
      [0x81, 0x09, 0x04, 0x66, 0xFF],
      [0x81, 0x01, 0x04, 0xA1, 0x01, 0x02, 0x03, 0x04, 0xFF],
      [0x81, 0x09, 0x04, 0xA1, 0xFF],
      [0x81, 0x01, 0x04, 0xA2, 0x01, 0x02, 0x03, 0x04, 0xFF],
      [0x81, 0x09, 0x04, 0xA2, 0xFF],
      [0x81, 0x01, 0x04, 0xA9, 0x05, 0xFF],
      [0x81, 0x09, 0x04, 0xA9, 0xFF]].map fun w => decode (.wire w)) =
    ([.brightPosDirect ⟨1, 0, 1⟩ 0x1234,
      .brightPosInq ⟨1, 0, 1⟩,
      .colorTempDirect ⟨1, 0, 1⟩ 0x3C,
      .colorTempInq ⟨1, 0, 1⟩,
      .flicker ⟨1, 0, 1⟩ 0x5,
      .flickerInq ⟨1, 0, 1⟩,
      .gainLimit ⟨1, 0, 1⟩ 0x5,
      .gainLimitInq ⟨1, 0, 1⟩,
      .wbMode ⟨1, 0, 1⟩ 0x5,
      .wbModeInq ⟨1, 0, 1⟩,
      .focusAuto ⟨1, 0, 1⟩,
      .focusManual ⟨1, 0, 1⟩,
      .focusModeInq ⟨1, 0, 1⟩,
      .aeMode ⟨1, 0, 1⟩ 0x2,
      .aeModeInq ⟨1, 0, 1⟩,
      .apertureDirect ⟨1, 0, 1⟩ 0x1234,
      .apertureInq ⟨1, 0, 1⟩,
      .rgainDirect ⟨1, 0, 1⟩ 0x1234,
      .rgainInq ⟨1, 0, 1⟩,
      .bgainDirect ⟨1, 0, 1⟩ 0x1234,
      .bgainInq ⟨1, 0, 1⟩,
      .zoomDirect ⟨1, 0, 1⟩ 0x1234,
      .zoomPosInq ⟨1, 0, 1⟩,
      .focusDirect ⟨1, 0, 1⟩ 0x1234,
      .focusPosInq ⟨1, 0, 1⟩,
      .colorGainDirect ⟨1, 0, 1⟩ 0x1234,
      .colorGainInq ⟨1, 0, 1⟩,
      .shutterDirect ⟨1, 0, 1⟩ 0x1234,
      .shutterInq ⟨1, 0, 1⟩,
      .irisDirect ⟨1, 0, 1⟩ 0x1234,
      .irisInq ⟨1, 0, 1⟩,
      .colorHueDirect ⟨1, 0, 1⟩ 0x1234,
      .colorHueInq ⟨1, 0, 1⟩,
      .lrReverse ⟨1, 0, 1⟩ 0x2,
      .lrReverseInq ⟨1, 0, 1⟩,
      .pictureEffect ⟨1, 0, 1⟩ 0x2,
      .pictureEffectInq ⟨1, 0, 1⟩,
      .pictureFlip ⟨1, 0, 1⟩ 0x2,
      .pictureFlipInq ⟨1, 0, 1⟩,
      .brightnessDirect ⟨1, 0, 1⟩ 0x1234,
      .brightnessInq ⟨1, 0, 1⟩,
      .contrastDirect ⟨1, 0, 1⟩ 0x1234,
      .contrastInq ⟨1, 0, 1⟩,
      .awbSens ⟨1, 0, 1⟩ 0x5,
      .awbSensInq ⟨1, 0, 1⟩] : List Instr).map some := by
  decide +kernel

/-- The encoder writes the same words, the worked examples of one row of each codec and the second MENU_ENTER. -/
theorem test_example_instructions_encode :
    ([.respByte ⟨1, 1, 0⟩ 0x23,
      .respPQ ⟨1, 1, 0⟩ 0xAB,
      .respPQRS ⟨1, 1, 0⟩ 0xABC,
      .ptPosResp ⟨1, 1, 0⟩ 0x0123 0xFEDC,
      .ack ⟨1, 1, 0⟩ 1,
      .error ⟨1, 1, 0⟩ 1 0x02,
      .camnumQuery ⟨1, 0, 8⟩,
      .camnumReply ⟨1, 0, 8⟩ 2,
      .zoomTeleVar ⟨1, 0, 1⟩ 0x5,
      .ptDrive ⟨1, 0, 1⟩ 0x18 0x14 0x1 0x3,
      .memoryRecall ⟨1, 0, 1⟩ 5,
      .motionSync ⟨1, 0, 1⟩ 0x2,
      .ptAbs ⟨1, 0, 1⟩ 0x18 0x14 0x0123 0x4567,
      .menuEnterVariant ⟨1, 0, 1⟩,
      .brightPosDirect ⟨1, 0, 1⟩ 0x1234,
      .colorTempDirect ⟨1, 0, 1⟩ 0x3C] : List Instr).map encode =
    [.wire [0x90, 0x50, 0x23, 0xFF],
      .wire [0x90, 0x50, 0x0A, 0x0B, 0xFF],
      .wire [0x90, 0x50, 0x00, 0x0A, 0x0B, 0x0C, 0xFF],
      .wire [0x90, 0x50, 0x00, 0x01, 0x02, 0x03, 0x0F, 0x0E, 0x0D, 0x0C, 0xFF],
      .wire [0x90, 0x41, 0xFF],
      .wire [0x90, 0x61, 0x02, 0xFF],
      .wire [0x88, 0x30, 0x01, 0xFF],
      .wire [0x88, 0x30, 0x02, 0xFF],
      .wire [0x81, 0x01, 0x04, 0x07, 0x25, 0xFF],
      .wire [0x81, 0x01, 0x06, 0x01, 0x18, 0x14, 0x01, 0x03, 0xFF],
      .wire [0x81, 0x01, 0x04, 0x3F, 0x02, 0x05, 0xFF],
      .wire [0x81, 0x0A, 0x11, 0x13, 0x02, 0xFF],
      .wire [0x81, 0x01, 0x06, 0x02, 0x18, 0x14, 0x00, 0x01, 0x02, 0x03, 0x04, 0x05, 0x06, 0x07, 0xFF],
      .wire [0x81, 0x01, 0x7E, 0x01, 0x02, 0x00, 0x01, 0xFF],
      .wire [0x81, 0x01, 0x04, 0x4D, 0x01, 0x02, 0x03, 0x04, 0xFF],
      .wire [0x81, 0x01, 0x04, 0x20, 0x03, 0x0C, 0xFF]] := by
  decide +kernel

/-- R101, R103, R104: the seven operations, written out as port records. -/
theorem test_port_requests_decode :
    decode (.port { op := 0, buf := [0x90] }) = some (.extract [0x90]) ∧
    decode (.port { op := 1, sender := 1, receiver := 2, payload := [0x41], outCapacity := 16, outHeld := [0xAA] }) =
      some (.serialize 1 2 [0x41] ⟨16, [0xAA]⟩) ∧
    decode (.port { op := 2, payload := [0x41] }) = some (.classify [0x41]) ∧
    decode (.port { op := 3, kind := 6 }) = some (.template .ack) ∧
    decode (.port { op := 4, dir := 1, codec := 12, work := [0x40], tag := 5, prm0 := 1 }) =
      some (.codec .encode .socket [0x40] (.socket 1)) ∧
    decode (.port { op := 5, buf := [0x90] }) = some (.decode [0x90]) ∧
    decode (.port
      { op := 6, kind := 28, sender := 0, receiver := 1, outCapacity := 16, tag := 3
        prm0 := 0x18, prm1 := 0x14, prm2 := 0x0123, prm3 := 0x4567, outHeld := [0xAA] }) =
      some (.encode .ptAbs (.ptPosition 0x18 0x14 0x0123 0x4567) 0 1 ⟨16, [0xAA]⟩) := by
  decide +kernel

/-- R102, R271: the port's bounds, each at its boundary. -/
theorem test_port_bounds :
    decodePort { op := 7 } = .error .opField ∧
    decodePort { op := 3, kind := 81 } = .ok (.template .awbSensInq) ∧
    decodePort { op := 3, kind := 82 } = .error .kindField ∧
    decodePort { op := 4, dir := 2 } = .error .dirField ∧
    decodePort { op := 4, codec := 15 } = .ok (.codec .decode .memory [] .none) ∧
    decodePort { op := 4, codec := 16 } = .error .codecField ∧
    decodePort { op := 4, tag := 8, prm0 := 255, prm1 := 255 } = .ok (.codec .decode .none [] (.memory 255 255)) ∧
    decodePort { op := 4, tag := 9 } = .error .tagField ∧
    decodePort { op := 4, tag := 1, prm0 := 256 } = .error .paramField ∧
    decodePort { op := 4, tag := 2, prm0 := 65535 } = .ok (.codec .decode .none [] (.twoByte 65535)) ∧
    decodePort { op := 4, tag := 2, prm0 := 65536 } = .error .paramField ∧
    decodePort { op := 4, tag := 5, prm0 := 16 } = .error .paramField := by
  decide +kernel

/-- The host's numbering: op 3, the row of ACK (socket 0) and the row of CAMNUM_QUERY. -/
theorem test_table_words_decode :
    decodeTableWord 3 3 = some (.template .unknown) ∧ decodeTableWord 8 0x40 = some (.ack ⟨1, 0, 0⟩ 0) ∧
    decodeTableWord 16 0x0130 = some (.camnumQuery ⟨1, 0, 0⟩) := by
  decide +kernel

/-- The next step runs the placed word: the row of CAMNUM_QUERY, and op 3 on kind 0 (R126). -/
theorem test_placed_words_run :
    (after (step (State.reset.withFetchWord 16 0x0130))).map State.events = some [.msg 0 0 0 .camnumQuery .none] ∧
    (after (step (State.reset.withFetchWord 3 3))).map State.responses =
      some [.template ⟨.error .unknownKind, some 0, none, none⟩] := by
  decide +kernel

/-- R101: op 7, and R106, R107, R89: streams without a frame of the table are rejected by name. -/
theorem test_decoder_rejects :
    decodeWire [0x81, 0x01] = .error .incomplete ∧ decodeWire [0xFF, 0x01] = .error .terminatorAtZero ∧
    decodeWire [0x81, 0x01, 0xFF] = .error .noRow := by
  decide +kernel

/-! ## One step -/

/-- 95_test_vectors.md section 2.6: PT_RESP and the additive ERROR; R51: the caller's byte above the frame stays. -/
theorem test_encode_error_reply :
    after (exec (.encode .error (.errorReply 1 0x02) 1 0 ⟨16, [1, 2, 3, 4, 5]⟩) State.reset) =
      some (handedBack State.reset [(0, 0x90), (1, 0x61), (2, 0x02), (3, 0xFF), (4, 5)]
        (.encode ⟨.ok, 4, some [0x90, 0x61, 0x02, 0xFF]⟩)) := by
  decide +kernel

/-- R152, R285: the additive write, over a used buffer, modulo 256. -/
theorem test_codec_adds :
    after (exec (.codec .encode .error [0xFF, 0x01] (.errorReply 1 0xFF)) State.reset) =
      some (answered State.reset (.codec ⟨.ok, none, none, some [0x00, 0x00]⟩)) := by
  decide +kernel

/-- R116: the address range is checked before the capacity; the caller's OUT stays. -/
theorem test_serialize_check_order :
    after (exec (.serialize 8 0 [0x41] ⟨1, [7]⟩) State.reset) =
      some (handedBack State.reset [(0, 7)] (.serialize ⟨.error .addressRange, 0, none⟩)) := by
  decide +kernel

/-- R68, R273: the second of two requests leaves the OUT buffer of the first as it was. -/
theorem test_out_buffers_are_apart :
    ((after (exec (.serialize 1 0 [0x41] ⟨3, []⟩) State.reset)).bind fun s =>
        after (exec (.serialize 2 0 [] ⟨2, []⟩) s)).map State.outs =
      some [[(0, 0x90), (1, 0x41), (2, 0xFF)], [(0, 0xA0), (1, 0xFF)]] := by
  decide +kernel

/-- R177: PT_POS_RESP reads no speeds. -/
theorem test_position_reply_is_delivered :
    after (step (polling [0x90, 0x50, 0x00, 0x01, 0x02, 0x03, 0x0F, 0x0E, 0x0D, 0x0C, 0xFF, 0x81])) =
      some { State.reset with
        rx := [0x81], cur := 11, task := .receiving
        events := [.msg 0 1 0 .ptPosResp (.ptPosition 0 0 0x0123 0xFEDC)] } := by
  decide +kernel

/-- R276: RX_MAX bytes without a frame stay; one more overflows. -/
theorem test_overflow_bound :
    after (step { polling (List.replicate 16 0) with cfg := ⟨16, refRegistry, some 16⟩ }) =
      some { State.reset with cfg := ⟨16, refRegistry, some 16⟩, rx := List.replicate 16 0 } ∧
    after (step { polling (List.replicate 17 0) with cfg := ⟨16, refRegistry, some 16⟩ }) =
      some { State.reset with cfg := ⟨16, refRegistry, some 16⟩, conn := .closed, events := [.overflow 0] } := by
  decide +kernel

/-- R119: each condition on a configuration, broken. -/
theorem test_configuration_checks :
    let good : Entry := ⟨2, [0x50, 0x00], [0xFF, 0x00], .respByte, .byteRsp⟩
    ([⟨16, [good, sentinel], none⟩, ⟨4, [good, sentinel], some 4⟩] : List Config).all (·.wf) = true ∧
    ([⟨1, [sentinel], none⟩,                                   -- R9: MAX_FRAME of at least 2
      ⟨16, [good], none⟩,                                      -- W1: the sentinel
      ⟨16, [sentinel, sentinel], none⟩,                        -- W2: a row of length 0
      ⟨3, [good, sentinel], none⟩,                             -- W2: a row longer than CAP
      ⟨16, [⟨2, [0x50], [0xFF, 0x00], .respByte, .none⟩, sentinel], none⟩,       -- W3
      ⟨16, [⟨2, [0x50, 0x00], [0xFF], .respByte, .none⟩, sentinel], none⟩,       -- W3
      ⟨16, [⟨2, [0x50, 0x01], [0xFF, 0x00], .respByte, .byteRsp⟩, sentinel], none⟩,   -- W4
      ⟨16, [⟨2, [0xFF, 0x00], [0xFF, 0x00], .respByte, .byteRsp⟩, sentinel], none⟩,   -- W5
      ⟨16, [⟨2, [0x50, 0x00], [0xFF, 0x00], .unknown, .byteRsp⟩, sentinel], none⟩,    -- W6
      ⟨16, [⟨2, [0x50, 0x00], [0xFF, 0x00], .respByte, .byteCmd⟩, sentinel], none⟩,   -- W7
      ⟨16, [⟨2, [0x50, 0x00], [0xFF, 0xF0], .respByte, .byteRsp⟩, sentinel], none⟩,   -- W8
      ⟨16, [good, sentinel], some 15⟩] : List Config).all (fun c => !c.wf) = true := by
  decide +kernel

/-! ## Witnesses: a state and operands that meet the hypotheses of each statement that has any -/

/-- A state that meets the invariant, other than reset: a POLL under way over the given bytes. -/
theorem polling_inv (bytes : List Byte) : (polling bytes).Inv where
  configured := reset_ready.1
  outsCanonical := fun m h => by cases h
  closedEmpty := fun h => by cases h
  idleUnframed := fun h => by cases h
  bounded := fun h => absurd rfl h
  offsetsReached := fun e h => by cases h

/-- A resting state that meets the invariant, with the first bytes of a frame in `rx`. -/
theorem resting_inv : State.Inv { State.reset with rx := [0x90, 0x41] } where
  configured := reset_ready.1
  outsCanonical := fun m h => by cases h
  closedEmpty := fun h => by cases h
  idleUnframed := fun _ => by decide
  bounded := fun _ n h => by cases h
  offsetsReached := fun e h => by cases h

theorem test_hyp_EveryStepKeepsTheInvariant :
    (polling ackFrame).Inv ∧
    step (polling ackFrame) = .next (delivered (polling ackFrame) 3 ⟨.ack, .socket 1, 1, 0⟩) :=
  ⟨polling_inv _, after_eq (by decide +kernel)⟩

theorem test_hyp_NoStepChangesTheConfiguration :
    step (polling ackFrame) = .next (delivered (polling ackFrame) 3 ⟨.ack, .socket 1, 1, 0⟩) ∧
    exec (.classify [0x41]) State.reset =
      .next (answered State.reset (.classify ⟨.matched, some .ack, some 5, some (.socket 1)⟩)) :=
  ⟨after_eq (by decide +kernel), after_eq (by decide +kernel)⟩

/-- At the boundary: a payload of CAP bytes. -/
theorem test_hyp_ConfiguredBlockRunsEveryInstruction :
    State.reset.cfg.wf = true ∧
    ∀ snd rcv p out, Instr.serialize 7 15 capPayload ⟨16, []⟩ = .serialize snd rcv p out →
      p.length ≤ State.reset.cfg.cap :=
  ⟨reset_ready.1, fun _ _ p _ h => by cases h; decide⟩

/-- A MAX_FRAME one below what REF_REGISTRY needs. -/
theorem test_hyp_IllFormedConfigurationAnswersNothing :
    State.cfg { State.reset with cfg := ⟨14, refRegistry, none⟩ } = ⟨14, refRegistry, none⟩ ∧
    Config.wf ⟨14, refRegistry, none⟩ = false := by
  decide +kernel

/-- At the boundary: a payload of CAP + 1 bytes. -/
theorem test_hyp_OverlongSerializePayloadIsRefused :
    State.reset.cfg.wf = true ∧ State.reset.cfg.cap < longPayload.length ∧
    longPayload.length = State.reset.cfg.cap + 1 :=
  ⟨reset_ready.1, by decide, by decide⟩

theorem test_hyp_PortRefusesExactlyBadRequests :
    (presented (.request { op := 7 })).task = .idle ∧
    (presented (.request { op := 7 })).inputs = [.request { op := 7 }] ∧ BadRequest { op := 7 } ∧
    refusal (step (presented (.request { op := 7 }))) = some (.port .opField) ∧
    ¬ BadRequest { op := 3, kind := 81 } ∧ BadRequest { op := 3, kind := 82 } :=
  ⟨rfl, rfl, .inl rfl, by decide +kernel, by simp [BadRequest], by simp [BadRequest]⟩

/-- Each clause, the two last at CAP + 1 and CAP bytes. -/
theorem test_hyp_ExtractFollowsTheFirstTerminator :
    State.reset.cfg.wf = true ∧ (0xFF : Byte) ∉ ([0x90, 0x41] : List Byte) ∧ (0x90 : Byte) ≠ 0xFF ∧
    0xFF ∉ longPayload ∧ State.reset.cfg.cap < longPayload.length ∧
    0xFF ∉ capPayload ∧ capPayload.length = State.reset.cfg.cap :=
  ⟨reset_ready.1, by decide, by decide, by decide, by decide, by decide, by decide⟩

theorem test_hyp_ExtractIsStableUnderPartialData :
    State.reset.cfg.wf = true ∧ Header.wf ⟨1, 1, 0⟩ = true ∧ 0xFF ∉ capPayload ∧
    capPayload.length ≤ State.reset.cfg.cap ∧ 15 < (frame ⟨1, 1, 0⟩ capPayload).length :=
  ⟨reset_ready.1, by decide, by decide, by decide, by decide⟩

/-- At the boundaries: CAP bytes, addresses 7 and 15, and a capacity that just holds the frame. -/
theorem test_hyp_SerializeWritesTheFrame :
    State.reset.cfg.wf = true ∧ capPayload.length ≤ State.reset.cfg.cap ∧ (7 : Byte).toNat ≤ 7 ∧
    (15 : Byte).toNat ≤ 15 ∧ capPayload.length + 2 ≤ 16 :=
  ⟨reset_ready.1, by decide, by decide, by decide, by decide⟩

/-- Both clauses: sender 8, receiver 16, and a capacity one too small. -/
theorem test_hyp_SerializeFailsBeforeAnyWrite :
    State.reset.cfg.wf = true ∧ capPayload.length ≤ State.reset.cfg.cap ∧
    (7 < (8 : Byte).toNat ∨ 15 < (0 : Byte).toNat) ∧ (7 < (0 : Byte).toNat ∨ 15 < (16 : Byte).toNat) ∧
    ((7 : Byte).toNat ≤ 7 ∧ (15 : Byte).toNat ≤ 15) ∧ 15 < capPayload.length + 2 :=
  ⟨reset_ready.1, by decide, by decide, by decide, by decide, by decide⟩

/-- The first row of the reference configuration that the ACK payload matches. -/
theorem ack_firstMatch : FirstMatch State.reset.cfg [0x41] (refRows.take 5) ⟨1, [0x40], [0xF0], .ack, .socket⟩ :=
  ⟨refRows.drop 6, by decide +kernel, by unfold Matches; decide +kernel, by unfold Matches; decide +kernel⟩

theorem test_hyp_ClassifyGivesTheFirstMatchingRow :
    State.reset.cfg.wf = true ∧ (∀ e ∈ State.reset.cfg.rows, ¬ Matches [0x01] e) ∧
    FirstMatch State.reset.cfg [0x41] (refRows.take 5) ⟨1, [0x40], [0xF0], .ack, .socket⟩ :=
  ⟨reset_ready.1, by unfold Matches; decide +kernel, ack_firstMatch⟩

/-- Rows 8 and 9, which overlap, and rows 5 and 6, which do not. -/
theorem test_hyp_RowsOverlapWhenTheirFixedBitsAgree :
    Entry.wf 2 ⟨2, [0x30, 0x01], [0xFF, 0xFF], .camnumQuery, .none⟩ = true ∧
    Entry.wf 2 ⟨2, [0x30, 0x00], [0xFF, 0xF0], .camnumReply, .camnum⟩ = true ∧
    Entry.wf 2 ⟨1, [0x40], [0xF0], .ack, .socket⟩ = true ∧
    Entry.wf 2 ⟨1, [0x50], [0xF0], .completion, .socket⟩ = true := by
  decide

theorem test_hyp_ReferenceRegistryIsWellFormed : 15 ≤ 15 ∧ (15 ≤ 15 ∧ 15 ≤ 15) ∧ 14 < 15 := by decide

theorem test_hyp_TemplateGivesTheFirstRowOfAKind :
    State.reset.cfg.wf = true ∧
    FirstOfKind State.reset.cfg .menuEnter (refRows.take 32)
      ⟨4, [0x01, 0x06, 0x06, 0x05], [0xFF, 0xFF, 0xFF, 0xFF], .menuEnter, .none⟩ ∧
    ∀ e ∈ State.reset.cfg.rows, e.kind ≠ .unknown :=
  ⟨reset_ready.1, ⟨refRows.drop 33, by decide +kernel, by decide +kernel, rfl⟩, by decide +kernel⟩

theorem test_hyp_TemplateFailsOnlyForUnknown : State.reset.refConfigured ∧ Kind.ack ≠ .unknown :=
  ⟨reset_configured, by decide⟩

theorem test_hyp_MenuEnterEncodesAsItsFirstRow : State.reset.refConfigured := reset_configured

/-- The least buffers that hold the digits. -/
theorem test_hyp_UnpackReadsLowNibblesMostSignificantFirst :
    0 + 1 < ([0x91, 0x82] : List Byte).length ∧ 0 + 3 < ([1, 2, 3, 4] : List Byte).length := by
  decide

theorem test_hyp_PackOrsDigitsIntoLowNibbles :
    (0 + 1 < ([0x90, 0x80] : List Byte).length ∧
      ∀ i < 2, (([0x90, 0x80] : List Byte).getD (0 + i) 0).toNat % 16 = 0) ∧
    (0 + 3 < ([0x90, 0, 0, 0x80] : List Byte).length ∧
      ∀ i < 4, (([0x90, 0, 0, 0x80] : List Byte).getD (0 + i) 0).toNat % 16 = 0) := by
  decide

/-- A configured state and a parameter of another variant, as the codec statements ask. -/
theorem test_hyp_FullByteCodecsReadAndAssignOneByte :
    State.reset.cfg.wf = true ∧ (Params.socket 1).shape ≠ .oneByte :=
  ⟨reset_ready.1, by decide⟩

theorem test_hyp_NibbleCodecsReadAndOrOneDigit :
    State.reset.cfg.wf = true ∧ (15 : Byte).toNat ≤ 15 ∧ 15 < (16 : Byte).toNat ∧
    (Params.twoByte 1).shape ≠ .oneByte :=
  ⟨reset_ready.1, by decide, by decide, by decide⟩

theorem test_hyp_PackedCodecsReadAndOrTheirDigits :
    State.reset.cfg.wf = true ∧ (Params.twoByte 1).shape ≠ .oneByte ∧ (Params.oneByte 1).shape ≠ .twoByte :=
  ⟨reset_ready.1, by decide, by decide⟩

theorem test_hyp_PanTiltCodecsReadAndWriteTheirFields :
    State.reset.cfg.wf = true ∧ (Params.ptDrive 0 0 0 0).shape ≠ .ptPosition ∧
    (Params.ptPosition 0 0 0 0).shape ≠ .ptDrive :=
  ⟨reset_ready.1, by decide, by decide⟩

theorem test_hyp_PartlyReadOnlyCodecs :
    State.reset.cfg.wf = true ∧ Params.none.shape ≠ .ptPosition ∧ Params.none.shape ≠ .memory :=
  ⟨reset_ready.1, by decide, by decide⟩

theorem test_hyp_AdditiveCodecsAddToTheirFields :
    State.reset.cfg.wf = true ∧ Params.none.shape ≠ .socket ∧ Params.none.shape ≠ .cameraNumber ∧
    (Params.socket 1).shape ≠ .errorReply :=
  ⟨reset_ready.1, by decide, by decide, by decide⟩

/-- One byte short of PT_ABS, and just enough. -/
theorem test_hyp_ShortCodecBufferIsACapacityError :
    State.reset.cfg.wf = true ∧ (List.replicate 12 (0 : Byte)).length < CodecId.ptAbs.minLen ∧
    CodecId.ptAbs.minLen ≤ (List.replicate 13 (0 : Byte)).length ∧
    exec (.codec .decode .ptAbs (List.replicate 13 0) .none) State.reset =
      .next (answered State.reset (.codec ⟨.ok, none, some (.ptPosition 0 0 0 0), none⟩)) :=
  ⟨reset_ready.1, by decide, by decide, after_eq (by decide +kernel)⟩

theorem test_hyp_CodecRoundTripOnAFreshTemplate :
    Entry.wf 14 ⟨1, [0x40], [0xF0], .ack, .socket⟩ = true ∧ CheckPasses .socket (.socket 15) ∧
    CheckPasses .pCmd (.oneByte 15) ∧ ¬ CheckPasses .pCmd (.oneByte 16) := by
  refine ⟨by decide, ?_, ?_, ?_⟩ <;> unfold CheckPasses AboveDigit <;> decide

theorem test_hyp_EncodedPayloadMatchesItsRow :
    Entry.wf 14 ⟨1, [0x40], [0xF0], .ack, .socket⟩ = true ∧
    codecEncode .socket [0x40] (.socket 15) = .ok [0x4F] :=
  ⟨by decide, rfl⟩

theorem test_hyp_CodecEncodeIsNotIdempotent : State.reset.cfg.wf = true := reset_ready.1

/-- Each clause: no terminator, CAP + 1 bytes, no row, a first row. -/
theorem test_hyp_DecodeOutcomesFollowTheFirstTerminator :
    State.reset.cfg.wf = true ∧ (0xFF : Byte) ∉ ([0x90, 0x41] : List Byte) ∧ (0x90 : Byte) ≠ 0xFF ∧
    (0xFF ∉ longPayload ∧ State.reset.cfg.cap < longPayload.length) ∧
    (0xFF ∉ capPayload ∧ capPayload.length = State.reset.cfg.cap ∧
      ∀ e ∈ State.reset.cfg.rows, ¬ Matches capPayload e) ∧
    (0xFF ∉ ([0x41] : List Byte) ∧
      FirstMatch State.reset.cfg [0x41] (refRows.take 5) ⟨1, [0x40], [0xF0], .ack, .socket⟩) :=
  ⟨reset_ready.1, by decide, by decide, by decide, ⟨by decide, by decide, by unfold Matches; decide +kernel⟩,
    by decide, ack_firstMatch⟩

theorem test_hyp_DecodeReadsEveryMessage :
    State.reset.refConfigured ∧ (Instr.camnumReply ⟨1, 7, 14⟩ 1).wf = true ∧
    typedMessage (shadowedBy (.camnumReply ⟨1, 7, 14⟩ 1)) = some ⟨.camnumQuery, .none, 7, 14⟩ :=
  ⟨reset_configured, by decide, rfl⟩

/-- With the address pair (7, 15), a 0xFF field, and a capacity that just holds the frame. -/
theorem test_hyp_EncodeWritesEveryMessage :
    State.reset.refConfigured ∧
    typedMessage (.aeMode ⟨1, 7, 15⟩ 0xFF) = some ⟨.aeMode, .oneByte 0xFF, 7, 15⟩ ∧
    (∀ h, Instr.aeMode ⟨1, 7, 15⟩ 0xFF ≠ .menuEnterVariant h) ∧
    (wireBytes (.aeMode ⟨1, 7, 15⟩ 0xFF)).head? =
      some (0x80 ||| ((7 : BitVec 3).setWidth 8 <<< 4) ||| (15 : BitVec 4).setWidth 8) ∧
    (wireBytes (.aeMode ⟨1, 7, 15⟩ 0xFF)).length ≤ 6 :=
  ⟨reset_configured, rfl, (fun _ h => by cases h), by decide, by decide⟩

/-- The row of ZOOM_TELE_VAR, for each outcome: another variant, 16, 15 with a bad address, a capacity one too
small, and just enough. -/
theorem test_hyp_EncodeOutcomesInOrder :
    State.reset.cfg.wf = true ∧ (∀ e ∈ State.reset.cfg.rows, e.kind ≠ .unknown) ∧
    FirstOfKind State.reset.cfg .zoomTeleVar (refRows.take 14)
      ⟨4, [0x01, 0x04, 0x07, 0x20], [0xFF, 0xFF, 0xFF, 0xF0], .zoomTeleVar, .pCmd⟩ ∧
    (CodecId.pCmd ≠ .none ∧ Params.none.shape ≠ codecShape .pCmd) ∧
    ((CodecId.pCmd = .pCmd ∨ CodecId.pCmd = .pRsp) ∧ AboveDigit (.oneByte 16)) ∧
    CheckPasses .pCmd (.oneByte 15) ∧ (7 < (8 : Byte).toNat ∨ 15 < (0 : Byte).toNat) ∧
    ((7 : Byte).toNat ≤ 7 ∧ (15 : Byte).toNat ≤ 15) ∧
    5 < ([0x01, 0x04, 0x07, 0x20] : List Byte).length + 2 ∧
    ([0x01, 0x04, 0x07, 0x20] : List Byte).length + 2 ≤ 6 := by
  refine ⟨reset_ready.1, by decide +kernel, ⟨refRows.drop 15, by decide +kernel, by decide +kernel, rfl⟩,
    by decide, ⟨.inl rfl, ?_⟩, ?_, by decide, by decide, by decide, by decide⟩
  · unfold AboveDigit; decide
  · unfold CheckPasses AboveDigit; decide

theorem test_hyp_EncodeThenDecodeGivesTheMessageBack :
    State.reset.cfg.wf = true ∧
    FirstOfKind State.reset.cfg .ack (refRows.take 5) ⟨1, [0x40], [0xF0], .ack, .socket⟩ ∧
    exec (.encode .ack (.socket 1) 1 0 ⟨3, []⟩) State.reset =
      .next (handedBack State.reset [(0, 0x90), (1, 0x41), (2, 0xFF)] (.encode ⟨.ok, 3, some [0x90, 0x41, 0xFF]⟩)) ∧
    (handedBack State.reset [(0, 0x90), (1, 0x41), (2, 0xFF)] (.encode ⟨.ok, 3, some [0x90, 0x41, 0xFF]⟩)).responses =
      State.reset.responses ++ [.encode ⟨.ok, 3, some (0x90 :: ([0x41] ++ [0xFF]))⟩] ∧
    ¬ ((1 : Byte) = 7 ∧ (0 : Byte) = 15) ∧ 0xFF ∉ ([0x41] : List Byte) ∧
    ∀ d ∈ refRows.take 5, ¬ Matches [0x41] d :=
  ⟨reset_ready.1, ⟨refRows.drop 6, by decide +kernel, by decide +kernel, rfl⟩, after_eq (by decide +kernel), rfl,
    by decide, by decide, by unfold Matches; decide +kernel⟩

theorem test_hyp_AddressPairSevenFifteenNeverDecodes :
    State.reset.cfg.wf = true ∧ capPayload.length ≤ State.reset.cfg.cap ∧ capPayload.length + 2 ≤ 16 :=
  ⟨reset_ready.1, by decide, by decide⟩

/-- The header next to the one that is 0xFF, and the greatest full byte. -/
theorem test_hyp_ReplyMessagesAreDelivered :
    Header.wf ⟨1, 7, 14⟩ = true ∧ fieldWf 0xFE = true ∧ State.reset.refReady ∧ (2 : Nibble) ≠ 1 :=
  ⟨by decide, by decide, reset_ready, by decide⟩

theorem test_hyp_PanTiltLensAndMenuMessagesAreDelivered :
    Header.wf ⟨0, 7, 15⟩ = true ∧ fieldWf 0xFE = true ∧ State.reset.refReady ∧
    (fieldWf 6 = true ∧ (6 : Byte) ≠ 4 ∧ (6 : Byte) ≠ 5) :=
  ⟨by decide, by decide, reset_ready, by decide⟩

theorem test_hyp_ImageMessagesAreDelivered :
    Header.wf ⟨1, 0, 1⟩ = true ∧ fieldWf 0xFE = true ∧ State.reset.refReady :=
  ⟨by decide, by decide, reset_ready⟩

theorem test_hyp_TerminatorInAFieldEndsTheMessageEarly :
    State.reset.refReady ∧ Header.wf ⟨1, 0, 1⟩ = true ∧ fieldWf 0xFE = true :=
  ⟨reset_ready, by decide, by decide⟩

/-- Each outcome of a pass: a closed connection, a header 0xFF, a payload without a row, a message. -/
theorem test_hyp_MessageRunsOnePassOfPoll :
    (wireBytes (.ack ⟨1, 1, 0⟩ 1) ≠ [] ∧ State.reset.cfg.wf = true) ∧
    State.conn { State.reset with conn := .closed } = .closed ∧ State.reset.conn = .opened ∧
    vcuDecode State.reset.cfg (wireBytes (.ack ⟨1, 7, 15⟩ 1)) = .ok (.bad .termAtZero) ∧
    vcuDecode State.reset.cfg (wireBytes (.motionSync ⟨1, 0, 1⟩ 0xFF)) = .ok (.noRow 5 0 1) ∧
    vcuDecode State.reset.cfg (wireBytes (.ack ⟨1, 1, 0⟩ 1)) = .ok (.hit 3 1 0 .ack (.socket 1)) :=
  ⟨⟨by decide, reset_ready.1⟩, rfl, rfl, by decide +kernel, by decide +kernel, by decide +kernel⟩

theorem test_hyp_HeaderTerminatorClosesTheConnection :
    (wireBytes (.ack ⟨1, 7, 15⟩ 1)).head? = some 0xFF ∧ State.reset.cfg.wf = true ∧ State.reset.conn = .opened :=
  ⟨by decide, reset_ready.1, rfl⟩

theorem test_hyp_MessageLeavesTheRestOfTheStateAlone :
    wireBytes (.ack ⟨1, 1, 0⟩ 1) ≠ [] ∧
    exec (.ack ⟨1, 1, 0⟩ 1) (polling ackFrame) =
      .next (delivered (polling ackFrame) 3 ⟨.ack, .socket 1, 1, 0⟩) :=
  ⟨by decide, after_eq (by decide +kernel)⟩

/-- A request without an OUT, one whose OUT keeps a byte above the frame, and one of a kind with a row. -/
theorem test_hyp_RequestLeavesTheHarnessAlone :
    (wireBytes (.classify [0x41]) = [] ∧ (∀ a b p out, Instr.classify [0x41] ≠ .serialize a b p out) ∧
      (∀ k p a b out, Instr.classify [0x41] ≠ .encode k p a b out) ∧
      exec (.classify [0x41]) State.reset =
        .next (answered State.reset (.classify ⟨.matched, some .ack, some 5, some (.socket 1)⟩))) ∧
    (exec (.serialize 1 0 [0x41] ⟨4, [6, 7, 8, 9]⟩) State.reset =
      .next (handedBack State.reset [(0, 0x90), (1, 0x41), (2, 0xFF), (3, 9)]
        (.serialize ⟨.ok, 3, some [0x90, 0x41, 0xFF]⟩))) ∧
    (exec (.encode .ack (.socket 1) 1 0 ⟨3, []⟩) State.reset =
      .next (handedBack State.reset [(0, 0x90), (1, 0x41), (2, 0xFF)] (.encode ⟨.ok, 3, some [0x90, 0x41, 0xFF]⟩)) ∧
      FirstOfKind State.reset.cfg .ack (refRows.take 5) ⟨1, [0x40], [0xF0], .ack, .socket⟩ ∧
      ∀ e ∈ State.reset.cfg.rows, e.kind ≠ .unknown) :=
  ⟨⟨rfl, (fun _ _ _ _ h => by cases h), (fun _ _ _ _ _ h => by cases h), after_eq (by decide +kernel)⟩,
    after_eq (by decide +kernel), after_eq (by decide +kernel),
    ⟨refRows.drop 6, by decide +kernel, by decide +kernel, rfl⟩, by decide +kernel⟩

/-- Two states that differ in everything but the configuration. -/
theorem test_hyp_ResponsesDoNotDependOnHistory :
    wireBytes (.classify [0x41]) = [] ∧
    State.reset.cfg = State.cfg { polling ackFrame with outs := [[(0, 0x90)]], conn := .closed } ∧
    exec (.classify [0x41]) State.reset =
      .next (answered State.reset (.classify ⟨.matched, some .ack, some 5, some (.socket 1)⟩)) ∧
    exec (.classify [0x41]) { polling ackFrame with outs := [[(0, 0x90)]], conn := .closed } =
      .next (answered { polling ackFrame with outs := [[(0, 0x90)]], conn := .closed }
        (.classify ⟨.matched, some .ack, some 5, some (.socket 1)⟩)) :=
  ⟨rfl, rfl, after_eq (by decide +kernel), after_eq (by decide +kernel)⟩

theorem test_hyp_HarnessStepsBeginAsDescribed :
    State.reset.cfg.wf = true ∧ State.reset.task = .idle ∧ State.reset.inputs = [] ∧
    (presented (.recv [0x90])).inputs = [.recv [0x90]] ∧ (presented .poll).inputs = [.poll] ∧
    (presented .openConn).inputs = [.openConn] ∧ (presented .closeConn).inputs = [.closeConn] ∧
    (presented .poll).conn = .opened ∧ State.conn { presented .poll with conn := .closed } = .closed :=
  ⟨reset_ready.1, rfl, rfl, rfl, rfl, rfl, rfl, rfl, rfl⟩

/-- Each clause; the bound at RX_MAX and one above it. -/
theorem test_hyp_PollLoopFollowsDecode :
    (polling ackFrame).cfg.wf = true ∧ (polling ackFrame).task ≠ .idle ∧ (polling ackFrame).conn = .opened ∧
    State.conn { polling [] with conn := .closed } = .closed ∧
    (0xFF ∉ (polling [0x90]).rx ∧ State.task { polling [0x90] with task := .polling } = .polling) ∧
    ((∀ n, (some 16 : Option Nat) = some n → (List.replicate 16 (0 : Byte)).length ≤ n) ∧
      16 < (List.replicate 17 (0 : Byte)).length ∧ 0xFF ∉ List.replicate 17 (0 : Byte) ∧
      Config.wf ⟨16, refRegistry, some 16⟩ = true) ∧
    vcuDecode (polling ackFrame).cfg [0xFF, 0x00] = .ok (.bad .termAtZero) ∧
    vcuDecode (polling ackFrame).cfg [0x81, 0x70, 0xFF, 0x90] = .ok (.noRow 3 0 1) ∧
    vcuDecode (polling ackFrame).cfg (polling ackFrame).rx = .ok (.hit 3 1 0 .ack (.socket 1)) :=
  ⟨reset_ready.1, by decide, rfl, rfl, ⟨by decide, rfl⟩,
    ⟨fun n h => by cases h; decide, by decide, by decide, by decide +kernel⟩, by decide +kernel, by decide +kernel,
    by decide +kernel⟩

theorem test_hyp_RunningADecodedMessageIsAPassOverRx :
    decodeWire (polling (ackFrame ++ [0x81])).rx = .ok (.ack ⟨1, 1, 0⟩ 1) := by
  decide +kernel

/-- A SEND that succeeds, one that raises, and one on a closed connection. -/
theorem test_hyp_SendAppendsTheEncodedFrame :
    State.reset.cfg.wf = true ∧ (presented (.send .ack (.socket 1) 1 0)).task = .idle ∧
    (presented (.send .ack (.socket 1) 1 0)).inputs = [.send .ack (.socket 1) 1 0] ∧
    (presented (.send .ack (.socket 1) 1 0)).conn = .opened ∧
    State.conn { presented (.send .ack (.socket 1) 1 0) with conn := .closed } = .closed ∧
    exec (.encode .ack (.socket 1) 1 0 ⟨State.reset.cfg.maxFrame, []⟩) (presented (.send .ack (.socket 1) 1 0)) =
      .next (handedBack (presented (.send .ack (.socket 1) 1 0)) [(0, 0x90), (1, 0x41), (2, 0xFF)]
        (.encode ⟨.ok, 3, some [0x90, 0x41, 0xFF]⟩)) ∧
    exec (.encode .ack .none 1 0 ⟨State.reset.cfg.maxFrame, []⟩) (presented (.send .ack .none 1 0)) =
      .next (handedBack (presented (.send .ack .none 1 0)) [] (.encode ⟨.error .paramShape, 0, none⟩)) :=
  ⟨reset_ready.1, rfl, rfl, rfl, rfl, after_eq (by decide +kernel), after_eq (by decide +kernel)⟩

theorem test_hyp_StepRunsTheDecodedInstruction :
    ((polling ackFrame).task ≠ .idle ∧ decodeWire (polling ackFrame).rx = .ok (.ack ⟨1, 1, 0⟩ 1)) ∧
    ((presented (.request { op := 3, kind := 6 })).task = .idle ∧
      (presented (.request { op := 3, kind := 6 })).inputs = [.request { op := 3, kind := 6 }] ∧
      decodePort { op := 3, kind := 6 } = .ok (.template .ack)) :=
  ⟨⟨by decide, by decide +kernel⟩, rfl, rfl, by decide +kernel⟩

/-- A resting state with a partial frame in `rx`. -/
theorem test_hyp_FragmentationDoesNotMatter :
    State.Inv { State.reset with rx := [0x90, 0x41] } ∧
    State.task { State.reset with rx := [0x90, 0x41] } = .idle ∧ State.reset.cfg.rxMax = none :=
  ⟨resting_inv, rfl, rfl⟩

theorem test_hyp_BackToBackMessagesAreAllDelivered :
    State.reset.refReady ∧ State.reset.task = .idle ∧ State.reset.rx = [] ∧
    ∀ i ∈ [Instr.ack ⟨1, 1, 0⟩ 1, .camnumReply ⟨1, 0, 8⟩ 1, .menuEnterVariant ⟨1, 0, 1⟩],
      i.wf = true ∧ wireBytes i ≠ [] :=
  ⟨reset_ready, rfl, rfl, by decide⟩

theorem test_hyp_DecodeUndoesEncode :
    (Instr.ptAbs ⟨0, 7, 15⟩ 0xFE 0xFE 0xFFFF 0).wf = true ∧
    (Instr.serialize 255 255 longPayload ⟨0, [0xAA]⟩).wf = true := by
  decide

theorem test_hyp_DecodedFrameIsTheEncoding :
    decodeWire [0x90, 0x41, 0xFF, 0x81] = .ok (.ack ⟨1, 1, 0⟩ 1) := by
  decide +kernel

/-- Each of the four operations that raise, with an error it raises. -/
theorem test_hyp_RaisedErrorAnswersStatusAndLengthZero :
    (wireBytes (.template .unknown) = [] ∧
      exec (.template .unknown) State.reset =
        .next (answered State.reset (.template ⟨.error .unknownKind, some 0, none, none⟩)) ∧
      Response.raised? (.template ⟨.error .unknownKind, some 0, none, none⟩) = some .unknownKind) ∧
    (exec (.codec .encode .socket [] .none) State.reset =
      .next (answered State.reset (.codec ⟨.error .capacity, some 0, none, none⟩))) ∧
    (exec (.serialize 0 16 [0x41] ⟨3, [6]⟩) State.reset =
      .next (handedBack State.reset [(0, 6)] (.serialize ⟨.error .addressRange, 0, none⟩))) ∧
    (exec (.encode .zoomTeleVar (.oneByte 16) 1 0 ⟨16, [6]⟩) State.reset =
      .next (handedBack State.reset [(0, 6)] (.encode ⟨.error .paramRange, 0, none⟩))) :=
  ⟨⟨rfl, after_eq (by decide +kernel), rfl⟩, after_eq (by decide +kernel), after_eq (by decide +kernel),
    after_eq (by decide +kernel)⟩

end Sys2Proof.Machine
end

/-! The framer's obligations (40_framer.md): EXTRACT by where the first terminator stands, and SERIALIZE when its
checks pass. -/

namespace Sys2Proof.Machine

/-! ## EXTRACT -/

/-- R74: the address fields a received header is read into, as quotient and remainder. -/
theorem sender_field_eq (b : Byte) : b.extractLsb' 4 3 = BitVec.ofNat 3 (b.toNat / 16 % 8) :=
  BitVec.eq_of_toNat_eq (by simp [BitVec.extractLsb'_toNat, Nat.shiftRight_eq_div_pow])

theorem receiver_field_eq (b : Byte) : b.extractLsb' 0 4 = BitVec.ofNat 4 (b.toNat % 16) :=
  BitVec.eq_of_toNat_eq (by simp [BitVec.extractLsb'_toNat])

/-- In a configured block EXTRACT answers what its function gives, and changes nothing but the response. -/
theorem exec_extract_of_ok {s : State} (hw : s.cfg.wf = true) {buf : List Byte} {r : ExtractResponse}
    (h : vcuExtract s.cfg buf = .ok r) : exec (.extract buf) s = .next (answered s (.extract r)) := by
  show execExtract buf s = _
  rw [execExtract, whenConfigured_wf hw, h]
  rfl

/-- Settles O11: one clause for each place the first terminator can stand. -/
theorem extractFollowsTheFirstTerminator : Obligations.ExtractFollowsTheFirstTerminator := by
  intro s hw
  refine ⟨fun buf hb => ?incomplete, fun rest => ?atZero,
    fun hdr p rest hh hp => ⟨fun hlong => ?overCapacity, fun hfits => ?found⟩⟩
  case incomplete => exact exec_extract_of_ok hw (vcuExtract_incomplete s.cfg buf hb)
  case atZero => exact exec_extract_of_ok hw (vcuExtract_atZero s.cfg rest)
  case overCapacity =>
    have hx := vcuExtract_frame s.cfg hdr p rest hh hp
    rw [if_pos hlong] at hx
    exact exec_extract_of_ok hw hx
  case found =>
    have hx := vcuExtract_frame s.cfg hdr p rest hh hp
    rw [if_neg (Nat.not_lt.mpr hfits), sender_field_eq, receiver_field_eq] at hx
    exact exec_extract_of_ok hw hx

/-! ## SERIALIZE -/

/-- In a configured block, with a payload within CAP, a SERIALIZE that succeeds hands its buffer back and answers. -/
theorem exec_serialize_of_ok {s : State} (hw : s.cfg.wf = true) {snd rcv : Byte} {p : List Byte} {out : OutBuffer}
    (hp : p.length ≤ s.cfg.cap) {m : Memory} {r : EncodeResponse}
    (h : vcuSerialize snd rcv p out.capacity (callerOut out) = .ok (m, r)) :
    exec (.serialize snd rcv p out) s = .next (handedBack s m (.serialize r)) := by
  show execSerialize snd rcv p out s = _
  rw [execSerialize, whenConfigured_wf hw, if_neg (Nat.not_lt.mpr hp), h]
  rfl

/-- SERIALIZE with its checks passed: OUT holds the frame, and keeps its other bytes. -/
theorem vcuSerialize_ok {snd rcv : Byte} {p : List Byte} {cap : Nat} (out : Memory) (hs : snd.toNat ≤ 7)
    (hr : rcv.toNat ≤ 15) (hc : p.length + 2 ≤ cap) :
    ∃ m, vcuSerialize snd rcv p cap out = .ok (m, .done (headerByte snd rcv :: (p ++ [terminator]))) ∧
      ∀ j, m.read j = if j < p.length + 2 then (headerByte snd rcv :: (p ++ [terminator]))[j]? else out.read j := by
  obtain ⟨haddr, -⟩ | ⟨-, hroom, -⟩ | ⟨-, -, m, hm, hread, -⟩ := vcuSerialize_cases snd rcv p cap out
  · omega
  · omega
  · exact ⟨m, hm, hread⟩

/-- Settles O13: below the frame's length OUT reads as the frame, from there upward as the caller handed it in. -/
theorem serializeWritesTheFrame : Obligations.SerializeWritesTheFrame := by
  intro s snd rcv p out hw hp hs hr hc
  obtain ⟨m, hm, hread⟩ := vcuSerialize_ok (callerOut out) hs hr hc
  have hlen : (headerByte snd rcv :: (p ++ [terminator])).length = p.length + 2 := by simp
  refine ⟨m, ?answers, fun j hj => ?frame, fun j hj => ?above⟩
  case answers =>
    have hx := exec_serialize_of_ok hw hp hm
    rw [EncodeResponse.done, hlen] at hx
    exact hx
  case frame =>
    rw [hread j, if_pos hj]
    rfl
  case above => rw [hread j, if_neg (Nat.not_lt.mpr hj), callerOut_read]

end Sys2Proof.Machine

/-! The registry's obligation (41_registry.md): CLASSIFY answers the first row that matches. The search of the model
tests masked equality on whole lists (`Entry.admits`); R121 says it byte by byte (`Matches`). -/

namespace Sys2Proof.Machine

/-! ## Masked equality -/

/-- W3: the lists of a well-formed row are as long as its payloads. -/
theorem Entry.wf_signature_mask_lengths {cap : Nat} {e : Entry} (h : e.wf cap = true) :
    e.signature.length = e.length ∧ e.mask.length = e.length := by
  simp only [Entry.wf, Bool.and_eq_true, beq_iff_eq] at h
  obtain ⟨⟨⟨⟨⟨⟨⟨-, hsig⟩, hmask⟩, -⟩, -⟩, -⟩, -⟩, -⟩ := h
  exact ⟨hsig, hmask⟩

/-- R121: on a well-formed row, where no list runs out early, the row's test is masked equality byte by byte. -/
theorem Entry.admits_iff_matches {cap : Nat} {e : Entry} (h : e.wf cap = true) (p : List Byte) :
    e.admits p = true ↔ Matches p e := by
  obtain ⟨hsig, hmask⟩ := Entry.wf_signature_mask_lengths h
  simp only [Entry.admits, Matches, Bool.and_eq_true, beq_iff_eq]
  refine and_congr_right fun hp => ⟨fun heq k hk => ?toBytes, fun hbytes => ?toLists⟩
  case toBytes =>
    have hkm : k < e.mask.length := by omega
    have hks : k < (List.zipWith (· &&& ·) p e.mask).length := by rw [List.length_zipWith]; omega
    rw [← heq, List.getD_eq_getElem _ _ hk, List.getD_eq_getElem _ _ hkm, List.getD_eq_getElem _ _ hks,
      List.getElem_zipWith]
  case toLists =>
    refine List.ext_getElem (by simp; omega) fun k hk hks => ?_
    have hkp : k < p.length := by omega
    have hkm : k < e.mask.length := by omega
    have hbyte := hbytes k hkp
    rw [List.getD_eq_getElem _ _ hkp, List.getD_eq_getElem _ _ hkm, List.getD_eq_getElem _ _ hks] at hbyte
    rw [List.getElem_zipWith, hbyte]

theorem Entry.admits_eq_false_iff {cap : Nat} {e : Entry} (h : e.wf cap = true) (p : List Byte) :
    e.admits p = false ↔ ¬ Matches p e := by
  rw [← Entry.admits_iff_matches h, Bool.not_eq_true]

/-! ## The first row that matches -/

/-- A list is split at the first member with a property in one way only. -/
theorem first_split_unique {α : Type} {P : α → Prop} {pre pre' post post' : List α} {a a' : α}
    (heq : pre ++ a :: post = pre' ++ a' :: post') (hpre : ∀ d ∈ pre, ¬ P d) (ha : P a)
    (hpre' : ∀ d ∈ pre', ¬ P d) (ha' : P a') : pre = pre' ∧ a = a' := by
  induction pre generalizing pre' with
  | nil =>
    cases pre' with
    | nil => exact ⟨rfl, (List.cons.inj heq).1⟩
    | cons d ds => exact absurd ((List.cons.inj heq).1 ▸ ha) (hpre' d List.mem_cons_self)
  | cons c cs ih =>
    cases pre' with
    | nil => exact absurd ((List.cons.inj heq).1 ▸ ha') (hpre c List.mem_cons_self)
    | cons d ds =>
      obtain ⟨hhead, htail⟩ := List.cons.inj heq
      obtain ⟨hrest, haa'⟩ := ih htail (fun x hx => hpre x (List.mem_cons_of_mem _ hx))
        (fun x hx => hpre' x (List.mem_cons_of_mem _ hx))
      exact ⟨by rw [hhead, hrest], haa'⟩

theorem FirstMatch.unique {c : Config} {p : List Byte} {pre pre' : List Entry} {e e' : Entry}
    (h : FirstMatch c p pre e) (h' : FirstMatch c p pre' e') : pre = pre' ∧ e = e' := by
  obtain ⟨post, hrows, hpre, he⟩ := h
  obtain ⟨post', hrows', hpre', he'⟩ := h'
  exact first_split_unique (hrows.symm.trans hrows') hpre he hpre' he'

theorem FirstMatch.exists_match {c : Config} {p : List Byte} {pre : List Entry} {e : Entry}
    (h : FirstMatch c p pre e) : ∃ d ∈ c.rows, Matches p d := by
  obtain ⟨post, hrows, -, he⟩ := h
  exact ⟨e, by simp [hrows], he⟩

/-! ## CLASSIFY -/

/-- R122: what CLASSIFY can do, in the words of R121. -/
theorem vcuClassify_cases {c : Config} (hw : c.wf = true) (p : List Byte) :
    ((∀ e ∈ c.rows, ¬ Matches p e) ∧ vcuClassify c p = .ok .noRow) ∨
    (∃ pre e prm, FirstMatch c p pre e ∧ codecDecode e.codec p = .ok prm ∧
      vcuClassify c p = .ok (.hit e.kind pre.length prm)) := by
  have hrow := Config.wf_rows hw
  obtain ⟨hcls, hnone⟩ | ⟨pre, e, post, prm, hrows, hpre, he, hprm, hcls⟩ :=
    classifyFrom_cases 0 c.cap c.rows p hrow
  · exact .inl ⟨fun e he => (Entry.admits_eq_false_iff (hrow e he) p).mp (hnone e he), hcls⟩
  · have hfirst : FirstMatch c p pre e :=
      ⟨post, hrows, fun d hd => (Entry.admits_eq_false_iff (hrow d (by simp [hrows, hd])) p).mp (hpre d hd),
        (Entry.admits_iff_matches (hrow e (by simp [hrows])) p).mp he⟩
    rw [Nat.zero_add] at hcls
    exact .inr ⟨pre, e, prm, hfirst, hprm, hcls⟩

theorem vcuClassify_noRow {c : Config} (hw : c.wf = true) {p : List Byte} (h : ∀ e ∈ c.rows, ¬ Matches p e) :
    vcuClassify c p = .ok .noRow := by
  obtain ⟨-, hcls⟩ | ⟨pre, e, prm, hfirst, -⟩ := vcuClassify_cases hw p
  · exact hcls
  · obtain ⟨d, hd, hmatch⟩ := hfirst.exists_match
    exact absurd hmatch (h d hd)

theorem vcuClassify_firstMatch {c : Config} (hw : c.wf = true) {p : List Byte} {pre : List Entry} {e : Entry}
    (h : FirstMatch c p pre e) :
    ∃ prm, codecDecode e.codec p = .ok prm ∧ vcuClassify c p = .ok (.hit e.kind pre.length prm) := by
  obtain ⟨hnone, -⟩ | ⟨pre', e', prm, hfirst, hprm, hcls⟩ := vcuClassify_cases hw p
  · obtain ⟨d, hd, hmatch⟩ := h.exists_match
    exact absurd hmatch (hnone d hd)
  · obtain ⟨rfl, rfl⟩ := h.unique hfirst
    exact ⟨prm, hprm, hcls⟩

/-- In a configured block CLASSIFY answers what its function gives, and changes nothing but the response. -/
theorem exec_classify_of_ok {s : State} (hw : s.cfg.wf = true) {p : List Byte} {r : ClassifyResponse}
    (h : vcuClassify s.cfg p = .ok r) : exec (.classify p) s = .next (answered s (.classify r)) := by
  show execClassify p s = _
  rw [execClassify, whenConfigured_wf hw, h]
  rfl

/-- Settles O15: the search either finds no row or stops at the first match, which there is only one of. -/
theorem classifyGivesTheFirstMatchingRow : Obligations.ClassifyGivesTheFirstMatchingRow := by
  intro s p hw
  refine ⟨fun hnone => exec_classify_of_ok hw (vcuClassify_noRow hw hnone), fun pre e hfirst => ?_⟩
  obtain ⟨prm, hprm, hcls⟩ := vcuClassify_firstMatch hw hfirst
  exact ⟨prm, hprm, exec_classify_of_ok hw hcls⟩

end Sys2Proof.Machine

/-! The operand fields' obligation (42_param_codecs.md section 1): what unpack2 and unpack4 read, as numbers. The model
joins the low nibbles as bit vectors (`++`); joining one nibble below a value multiplies it by 16. -/

namespace Sys2Proof.Machine

theorem toNat_low (b : Byte) : (low b).toNat = b.toNat % 16 := by
  simp [low, BitVec.extractLsb'_toNat]

theorem toNat_append_nibble {n : Nat} (v : BitVec n) (d : Nibble) : (v ++ d).toNat = v.toNat * 16 + d.toNat := by
  rw [BitVec.toNat_append, ← Nat.shiftLeft_add_eq_or_of_lt d.isLt, Nat.shiftLeft_eq]

/-- R133, N = 2: the high nibbles play no part. -/
theorem toNat_low_append_low (a b : Byte) : (low a ++ low b).toNat = a.toNat % 16 * 0x10 + b.toNat % 16 := by
  rw [toNat_append_nibble, toNat_low, toNat_low]

/-- R133, N = 4: the high nibbles play no part. -/
theorem toNat_quad (a b c d : Byte) :
    (quad a b c d).toNat =
      a.toNat % 16 * 0x1000 + b.toNat % 16 * 0x100 + c.toNat % 16 * 0x10 + d.toNat % 16 := by
  have horner : (quad a b c d).toNat =
      ((a.toNat % 16 * 16 + b.toNat % 16) * 16 + c.toNat % 16) * 16 + d.toNat % 16 := by
    simp only [quad, toNat_append_nibble, toNat_low]
  omega

/-- Settles O22: inside the buffer both reads succeed, and the joined nibbles have the stated value. -/
theorem unpackReadsLowNibblesMostSignificantFirst :
    Obligations.UnpackReadsLowNibblesMostSignificantFirst := by
  intro b o
  refine ⟨fun h => ⟨_, unpack2_ok h, ?two⟩, fun h => ⟨_, unpack4_ok h, ?four⟩⟩
  case two =>
    rw [toNat_low_append_low, List.getD_eq_getElem b 0 (show o < b.length by omega), List.getD_eq_getElem b 0 h]
  case four =>
    rw [toNat_quad, List.getD_eq_getElem b 0 (show o < b.length by omega),
      List.getD_eq_getElem b 0 (show o + 1 < b.length by omega),
      List.getD_eq_getElem b 0 (show o + 2 < b.length by omega), List.getD_eq_getElem b 0 h]

end Sys2Proof.Machine

/-! The sequencer's obligation (43_entry_points.md): DECODE is EXTRACT followed, on a frame, by CLASSIFY of its
payload, so its outcomes are the framer's failures and the two answers of the classifier. -/

namespace Sys2Proof.Machine

/-! ## The frame that DECODE reads -/

/-- A frame whose payload is within CAP: DECODE consumes it and reads its fields (R74, R107). -/
theorem vcuDecode_fits (c : Config) {hdr : Byte} {p : List Byte} (rest : List Byte) (hh : hdr ≠ terminator)
    (hp : terminator ∉ p) (hfits : p.length ≤ c.cap) :
    vcuDecode c (hdr :: (p ++ terminator :: rest)) =
      decodeFrame c ⟨BitVec.ofNat 3 (hdr.toNat / 16 % 8), BitVec.ofNat 4 (hdr.toNat % 16), p⟩
        ((p.length : Int) + 2) := by
  rw [vcuDecode_frame c hdr p rest hh hp, if_neg (Nat.not_lt.mpr hfits), sender_field_eq, receiver_field_eq]
  rfl

theorem vcuDecode_overCapacity (c : Config) {hdr : Byte} {p : List Byte} (rest : List Byte) (hh : hdr ≠ terminator)
    (hp : terminator ∉ p) (hlong : c.cap < p.length) :
    vcuDecode c (hdr :: (p ++ terminator :: rest)) = .ok (.bad .overCapacity) := by
  rw [vcuDecode_frame c hdr p rest hh hp, if_pos hlong]

/-! ## The classifier's answer, passed on -/

theorem decodeFrame_noRow {c : Config} (hw : c.wf = true) (f : Frame) (n : Int)
    (h : ∀ e ∈ c.rows, ¬ Matches f.payload e) :
    decodeFrame c f n = .ok (.noRow n f.sender f.receiver) := by
  rw [decodeFrame, vcuClassify_noRow hw h]
  rfl

theorem decodeFrame_firstMatch {c : Config} (hw : c.wf = true) (f : Frame) (n : Int) {pre : List Entry} {e : Entry}
    (h : FirstMatch c f.payload pre e) :
    ∃ prm, codecDecode e.codec f.payload = .ok prm ∧
      decodeFrame c f n = .ok (.hit n f.sender f.receiver e.kind prm) := by
  obtain ⟨prm, hprm, hcls⟩ := vcuClassify_firstMatch hw h
  refine ⟨prm, hprm, ?_⟩
  rw [decodeFrame, hcls]
  rfl

/-! ## DECODE -/

/-- In a configured block DECODE answers what its function gives, and changes nothing but the response. -/
theorem exec_decode_of_ok {s : State} (hw : s.cfg.wf = true) {buf : List Byte} {r : DecodeResponse}
    (h : vcuDecode s.cfg buf = .ok r) : exec (.decode buf) s = .next (answered s (.decode r)) := by
  show execDecode buf s = _
  rw [execDecode, whenConfigured_wf hw, h]
  rfl

/-- Settles O34: one clause for each place the first terminator can stand; a frame within CAP by whether a row
matches its payload. -/
theorem decodeOutcomesFollowTheFirstTerminator : Obligations.DecodeOutcomesFollowTheFirstTerminator := by
  intro s hw
  refine ⟨fun buf hb => ?incomplete, fun rest => ?atZero,
    fun hdr p rest hh hp => ⟨fun hlong => ?overCapacity, fun hfits hnone => ?unknown,
      fun hfits pre e hfirst => ?message⟩⟩
  case incomplete => exact exec_decode_of_ok hw (vcuDecode_incomplete s.cfg buf hb)
  case atZero => exact exec_decode_of_ok hw (vcuDecode_atZero s.cfg rest)
  case overCapacity => exact exec_decode_of_ok hw (vcuDecode_overCapacity s.cfg rest hh hp hlong)
  case unknown =>
    exact exec_decode_of_ok hw ((vcuDecode_fits s.cfg rest hh hp hfits).trans (decodeFrame_noRow hw _ _ hnone))
  case message =>
    obtain ⟨prm, hprm, hhit⟩ := decodeFrame_firstMatch hw ⟨_, _, p⟩ _ hfirst
    exact ⟨prm, hprm, exec_decode_of_ok hw ((vcuDecode_fits s.cfg rest hh hp hfits).trans hhit)⟩

end Sys2Proof.Machine

/-! The reference registry (41_registry.md section 6): which configurations with REF_REGISTRY are well-formed, and
which of its rows overlap. The 82 rows are checked once, at the least capacity that holds the longest of them; a
larger capacity breaks no condition of R119. -/

namespace Sys2Proof.Machine

/-! ## Well-formedness -/

/-- R119: a larger capacity keeps a row well-formed; only the bound on its length reads the capacity. -/
theorem Entry.wf_mono {cap cap' : Nat} {e : Entry} (hcap : cap ≤ cap') (h : e.wf cap = true) : e.wf cap' = true := by
  have hlen : e.length ≤ cap' := (Entry.wf_lengths h).1.trans hcap
  have hlen₀ : e.length ≤ cap := (Entry.wf_lengths h).1
  simpa [Entry.wf, hlen, hlen₀] using h

theorem refRows_wf : ∀ e ∈ refRows, e.wf 13 = true := by decide

@[simp] theorem refRegistry_dropLast : refRegistry.dropLast = refRows := by
  rw [refRegistry, List.dropLast_concat]

theorem Config.rows_of_refRegistry {c : Config} (h : c.registry = refRegistry) : c.rows = refRows := by
  rw [Config.rows, h, refRegistry_dropLast]

/-- R119 for REF_REGISTRY: its sentinel stands, so the bounds and the length of the rows decide. -/
theorem Config.wf_refRegistry (n : Nat) (bound : Option Nat) :
    Config.wf ⟨n, refRegistry, bound⟩ =
      (decide (2 ≤ n) && refRows.all (·.wf (n - 2)) && Config.rxMaxWf ⟨n, refRegistry, bound⟩) := by
  have hsentinel : Config.endsInSentinel ⟨n, refRegistry, bound⟩ = true := by
    rw [Config.endsInSentinel, refRegistry, List.getLast?_concat]
    rfl
  rw [Config.wf, hsentinel, Config.rows_of_refRegistry rfl, Bool.and_true]
  rfl

theorem refRows_all_wf {cap : Nat} (h : 13 ≤ cap) : refRows.all (·.wf cap) = true :=
  List.all_eq_true.mpr fun e he => Entry.wf_mono h (refRows_wf e he)

/-- PT_ABS (row 27) is 13 bytes long. -/
theorem refRows_longest : ∃ e ∈ refRows, e.length = 13 := by decide

/-- Settles O18: the capacity 13 holds the longest row, and no smaller one does. -/
theorem referenceRegistryIsWellFormed : Obligations.ReferenceRegistryIsWellFormed := by
  refine ⟨fun n hn => ?unbounded, fun n bound hn hb => ?bounded, fun n bound hn => ?short⟩
  case unbounded =>
    rw [Config.wf_refRegistry, refRows_all_wf (by omega)]
    simp [Config.rxMaxWf]; omega
  case bounded =>
    rw [Config.wf_refRegistry, refRows_all_wf (by omega)]
    simp [Config.rxMaxWf, hb]; omega
  case short =>
    obtain ⟨e, he, hlen⟩ := refRows_longest
    refine Bool.eq_false_iff.mpr fun hw => ?_
    have hrows : Config.rows ⟨n, refRegistry, bound⟩ = refRows := Config.rows_of_refRegistry rfl
    have hfits := (Entry.wf_lengths (Config.wf_rows hw e (hrows ▸ he))).1
    simp only [Config.cap] at hfits
    omega

/-! ## Overlap -/


/-- A masked byte of a row's signature, as one list. -/
theorem getElem_maskedBytes {p q : List Byte} {k : Nat} (hp : k < p.length) (hq : k < q.length) :
    (List.zipWith (· &&& ·) p q)[k]'(by simp; omega) = p.getD k 0 &&& q.getD k 0 := by
  rw [List.getElem_zipWith, List.getD_eq_getElem _ _ hp, List.getD_eq_getElem _ _ hq]

/-- R124: the row test `overlaps`, byte by byte. -/
theorem Entry.overlaps_iff {cap : Nat} {a b : Entry} (ha : a.wf cap = true) (hb : b.wf cap = true) :
    a.overlaps b = true ↔ a.length = b.length ∧
      ∀ k < a.length, a.signature.getD k 0 &&& b.mask.getD k 0 = b.signature.getD k 0 &&& a.mask.getD k 0 := by
  obtain ⟨hsa, hma⟩ := Entry.wf_signature_mask_lengths ha
  obtain ⟨hsb, hmb⟩ := Entry.wf_signature_mask_lengths hb
  simp only [Entry.overlaps, Bool.and_eq_true, beq_iff_eq]
  refine and_congr_right fun hlen => ⟨fun heq k hk => ?_, fun hbytes => ?_⟩
  · rw [← getElem_maskedBytes (by omega) (by omega), ← getElem_maskedBytes (by omega) (by omega)]
    exact List.getElem_of_eq heq _
  · refine List.ext_getElem (by simp; omega) fun k hk hk' => ?_
    have hlt : k < a.length := by simp at hk; omega
    rw [getElem_maskedBytes (by omega) (by omega), getElem_maskedBytes (by omega) (by omega)]
    exact hbytes k hlt


/-- R119 W2 to W8, each condition on its own. -/
theorem Entry.wf_iff {cap : Nat} {e : Entry} :
    e.wf cap = true ↔ 1 ≤ e.length ∧ e.length ≤ cap ∧ e.signature.length = e.length ∧ e.mask.length = e.length ∧
      e.zeroVariable = true ∧ terminator ∉ e.signature ∧ e.kind ≠ .unknown ∧ e.codec.minLen ≤ e.length ∧
      e.writesVariable = true := by
  simp [Entry.wf, and_assoc]


theorem and_eq_self_of_and_not_eq_zero {s m : Byte} (h : s &&& ~~~m = 0) : s &&& m = s :=
  calc s &&& m = (s &&& m) ||| (s &&& ~~~m) := by rw [h]; simp
    _ = s := by rw [← BitVec.and_or_distrib_left, BitVec.or_not_self, BitVec.and_allOnes]

theorem or_and_absorb (x m : Byte) : x ||| (x &&& m) = x := by
  ext i
  simpa using fun h _ => h

/-- W4: a signature holds no bit outside its mask. -/
theorem Entry.signature_and_mask {cap : Nat} {e : Entry} (h : e.wf cap = true) (k : Nat) :
    e.signature.getD k 0 &&& e.mask.getD k 0 = e.signature.getD k 0 := by
  obtain ⟨-, -, hsig, hmask, hzero, -⟩ := Entry.wf_iff.mp h
  by_cases hk : k < e.length
  case neg =>
    rw [List.getD_eq_default _ _ (show e.signature.length ≤ k by omega)]
    simp
  case pos =>
    simp only [Entry.zeroVariable, List.all_eq_true, beq_iff_eq] at hzero
    have hlt : k < (List.zipWith (fun s m => s &&& ~~~m) e.signature e.mask).length := by simp; omega
    have hbits := hzero _ (List.getElem_mem hlt)
    rw [List.getElem_zipWith] at hbits
    rw [List.getD_eq_getElem _ _ (by omega), List.getD_eq_getElem _ _ (by omega)]
    exact and_eq_self_of_and_not_eq_zero hbits

/-- R121 on a well-formed row, with the row's own length as the bound. -/
theorem matches_iff {p : List Byte} {e : Entry} :
    Matches p e ↔ p.length = e.length ∧
      ∀ k < e.length, p.getD k 0 &&& e.mask.getD k 0 = e.signature.getD k 0 :=
  and_congr_right fun h => by rw [h]

/-- R124: rows that a common payload matches agree on the bits they both fix. -/
theorem fixedBits_agree_of_matches {p : List Byte} {a b : Entry} (ha : Matches p a) (hb : Matches p b) :
    a.length = b.length ∧
      ∀ k < a.length, a.signature.getD k 0 &&& b.mask.getD k 0 = b.signature.getD k 0 &&& a.mask.getD k 0 := by
  obtain ⟨hla, hba⟩ := matches_iff.mp ha
  obtain ⟨hlb, hbb⟩ := matches_iff.mp hb
  refine ⟨hla.symm.trans hlb, fun k hk => ?_⟩
  rw [← hba k hk, ← hbb k (by omega), BitVec.and_assoc, BitVec.and_assoc, BitVec.and_comm (b.mask.getD k 0)]

/-- The payload that has the fixed bits of two rows, and 0 elsewhere. -/
def jointPayload (a b : Entry) : List Byte := List.zipWith (· ||| ·) a.signature b.signature

/-- R124: rows that agree on the bits they both fix match the payload that has the fixed bits of both. -/
theorem jointPayload_matches {cap : Nat} {a b : Entry} (ha : a.wf cap = true) (hb : b.wf cap = true)
    (hlen : a.length = b.length)
    (hbits : ∀ k < a.length,
      a.signature.getD k 0 &&& b.mask.getD k 0 = b.signature.getD k 0 &&& a.mask.getD k 0) :
    Matches (jointPayload a b) a ∧ Matches (jointPayload a b) b := by
  have hsa := (Entry.wf_signature_mask_lengths ha).1
  have hsb := (Entry.wf_signature_mask_lengths hb).1
  have hbyte : ∀ k < a.length, (jointPayload a b).getD k 0 = a.signature.getD k 0 ||| b.signature.getD k 0 :=
    fun k hk => by
      have hlt : k < (jointPayload a b).length := by simp [jointPayload]; omega
      rw [List.getD_eq_getElem _ _ hlt, List.getD_eq_getElem _ _ (by omega), List.getD_eq_getElem _ _ (by omega)]
      exact List.getElem_zipWith ..
  have hjoint : (jointPayload a b).length = a.length := by simp [jointPayload]; omega
  refine ⟨matches_iff.mpr ⟨hjoint, fun k hk => ?_⟩, matches_iff.mpr ⟨hjoint.trans hlen, fun k hk => ?_⟩⟩
  · rw [hbyte k hk, BitVec.and_or_distrib_right, Entry.signature_and_mask ha, ← hbits k hk]
    exact or_and_absorb _ _
  · rw [hbyte k (by omega), BitVec.and_or_distrib_right, Entry.signature_and_mask hb, hbits k (by omega),
      BitVec.or_comm]
    exact or_and_absorb _ _

/-- Settles O16: a common payload shows the agreement; the joint payload is a common one. -/
theorem rowsOverlapWhenTheirFixedBitsAgree : Obligations.RowsOverlapWhenTheirFixedBitsAgree :=
  fun _ _ _ ha hb =>
    ⟨fun ⟨_, hpa, hpb⟩ => fixedBits_agree_of_matches hpa hpb,
      fun ⟨hlen, hbits⟩ => ⟨_, jointPayload_matches ha hb hlen hbits⟩⟩

/-- Settles O17: a closed fact about the 82 rows. -/
theorem referenceRegistryOverlapsInFourPairs : Obligations.ReferenceRegistryOverlapsInFourPairs := by
  unfold Obligations.ReferenceRegistryOverlapsInFourPairs
  decide +kernel

end Sys2Proof.Machine

/-! The request operations (30_encoding.md R101): one lemma says what a request can do in a configured block, and the
obligations about requests are read off it: that each answers (60_exceptions.md), what it leaves alone
(10_state.md section 6), that a raised error has a length of 0 and writes no byte (R256). -/

namespace Sys2Proof.Machine

/-! ## The gate -/

/-- R119: every meaning stands behind the gate of the configuration. -/
theorem exec_illFormed {s : State} (hw : s.cfg.wf = false) (i : Instr) :
    exec i s = .refused .illFormedConfiguration := by
  have gate : ∀ r : Result, whenConfigured s r = .refused .illFormedConfiguration := fun r => by
    simp [whenConfigured, hw]
  cases i <;> exact gate _

/-- Settles O9. -/
theorem overlongSerializePayloadIsRefused : Obligations.OverlongSerializePayloadIsRefused := by
  intro s snd rcv p out hw hlong
  show execSerialize snd rcv p out s = _
  rw [execSerialize, whenConfigured_wf hw, if_pos hlong]

/-! ## What a request can do -/

/-- A property of the request operations, the instructions without a frame (R101), is shown for each of the seven. -/
theorem request_cases {motive : (i : Instr) → wireBytes i = [] → Prop}
    (extract : ∀ buf, motive (.extract buf) rfl)
    (serialize : ∀ snd rcv p out, motive (.serialize snd rcv p out) rfl)
    (classify : ∀ p, motive (.classify p) rfl)
    (template : ∀ k, motive (.template k) rfl)
    (codec : ∀ dir d work prm, motive (.codec dir d work prm) rfl)
    (decode : ∀ buf, motive (.decode buf) rfl)
    (encode : ∀ k prm snd rcv out, motive (.encode k prm snd rcv out) rfl)
    (i : Instr) (hi : wireBytes i = []) : motive i hi := by
  cases i
  case extract => exact extract _
  case serialize => exact serialize _ _ _ _
  case classify => exact classify _
  case template => exact template _
  case codec => exact codec _ _ _ _
  case decode => exact decode _
  case encode => exact encode _ _ _ _ _
  all_goals exact absurd hi (List.cons_ne_nil _ _)

/-- R101, R256: what a request operation can answer under a configuration: the OUT buffers it hands back (its own, or
none), and its response. -/
inductive RequestOutcome (c : Config) : Instr → List Memory → Response → Prop
  | extract (buf : List Byte) (r : ExtractResponse) : RequestOutcome c (.extract buf) [] (.extract r)
  | classify (p : List Byte) (r : ClassifyResponse) : RequestOutcome c (.classify p) [] (.classify r)
  | decode (buf : List Byte) (r : DecodeResponse) : RequestOutcome c (.decode buf) [] (.decode r)
  | templateHit (k : Kind) (e : Entry) (row : Nat) : RequestOutcome c (.template k) [] (.template (.hit e row))
  | templateFailed (k : Kind) (x : EncError) : RequestOutcome c (.template k) [] (.template (.failed x))
  | codecDone (dir : Dir) (d : CodecId) (work : List Byte) (prm : Params) (r : CodecResponse) (hr : r.status = .ok) :
    RequestOutcome c (.codec dir d work prm) [] (.codec r)
  | codecFailed (dir : Dir) (d : CodecId) (work : List Byte) (prm : Params) (x : EncError) :
    RequestOutcome c (.codec dir d work prm) [] (.codec (.failed x))
  | serializeDone (snd rcv : Byte) (p : List Byte) (out : OutBuffer) (m : Memory) (bytes : List Byte)
      (hm : Memory.wf m = true) (hkeep : KeepsOutFrom (p.length + 2) out m) :
    RequestOutcome c (.serialize snd rcv p out) [m] (.serialize (.done bytes))
  | serializeFailed (snd rcv : Byte) (p : List Byte) (out : OutBuffer) (x : EncError) :
    RequestOutcome c (.serialize snd rcv p out) [callerOut out] (.serialize (.failed x))
  | encodeDone (k : Kind) (prm : Params) (snd rcv : Byte) (out : OutBuffer) (m : Memory) (bytes : List Byte)
      (pre : List Entry) (e : Entry) (he : FirstOfKind c k pre e) (hm : Memory.wf m = true)
      (hkeep : KeepsOutFrom (e.length + 2) out m) :
    RequestOutcome c (.encode k prm snd rcv out) [m] (.encode (.done bytes))
  | encodeFailed (k : Kind) (prm : Params) (snd rcv : Byte) (out : OutBuffer) (x : EncError) :
    RequestOutcome c (.encode k prm snd rcv out) [callerOut out] (.encode (.failed x))

/-- The state after a request: its own OUT buffers and its response stand last, everything else is as it was. -/
def State.requested (s : State) (own : List Memory) (r : Response) : State :=
  { s with outs := s.outs ++ own, responses := s.responses ++ [r] }

theorem answered_eq_requested (s : State) (r : Response) : answered s r = s.requested [] r := by
  simp [answered, State.requested]

/-- R51: a buffer that a request did not write reads as its caller handed it in. -/
theorem callerOut_keeps (n : Nat) (out : OutBuffer) : KeepsOutFrom n out (callerOut out) :=
  fun j _ => callerOut_read out j

/-- R51: a buffer written below an index reads from there upward as its caller handed it in. -/
theorem keepsOutFrom_of_read {n : Nat} {out : OutBuffer} {m : Memory} {f : Nat → Option Byte}
    (h : ∀ j, m.read j = if j < n then f j else (callerOut out).read j) : KeepsOutFrom n out m := fun j hj => by
  rw [h j, if_neg (Nat.not_lt.mpr hj), callerOut_read]

/-- R126: the search for a kind, in the words of its rule. -/
theorem vcuTemplate_cases (c : Config) (k : Kind) :
    ((∀ e ∈ c.rows, e.kind ≠ k) ∧ vcuTemplate c k = .error .unknownKind) ∨
    ∃ pre e, FirstOfKind c k pre e ∧ vcuTemplate c k = .ok (e, pre.length) := by
  obtain ⟨htmpl, hnone⟩ | ⟨pre, e, post, hrows, hpre, he, htmpl⟩ := templateFrom_cases 0 c.rows k
  · exact .inl ⟨hnone, htmpl⟩
  · rw [Nat.zero_add] at htmpl
    exact .inr ⟨pre, e, ⟨post, hrows, hpre, he⟩, htmpl⟩

theorem FirstOfKind.mem {c : Config} {k : Kind} {pre : List Entry} {e : Entry} (h : FirstOfKind c k pre e) :
    e ∈ c.rows := by
  obtain ⟨post, hrows, -⟩ := h
  simp [hrows]

theorem FirstOfKind.kind_eq {c : Config} {k : Kind} {pre : List Entry} {e : Entry} (h : FirstOfKind c k pre e) :
    e.kind = k := by
  obtain ⟨-, -, -, he⟩ := h
  exact he

theorem FirstOfKind.unique {c : Config} {k : Kind} {pre pre' : List Entry} {e e' : Entry}
    (h : FirstOfKind c k pre e) (h' : FirstOfKind c k pre' e') : pre = pre' ∧ e = e' := by
  obtain ⟨post, hrows, hpre, he⟩ := h
  obtain ⟨post', hrows', hpre', he'⟩ := h'
  exact first_split_unique (P := fun d => d.kind = k) (hrows.symm.trans hrows') hpre he hpre' he'

theorem vcuTemplate_unknown {c : Config} {k : Kind} (h : ∀ e ∈ c.rows, e.kind ≠ k) :
    vcuTemplate c k = .error .unknownKind := by
  obtain ⟨-, htmpl⟩ | ⟨pre, e, hfirst, -⟩ := vcuTemplate_cases c k
  · exact htmpl
  · exact absurd hfirst.kind_eq (h e hfirst.mem)

theorem vcuTemplate_first {c : Config} {k : Kind} {pre : List Entry} {e : Entry} (h : FirstOfKind c k pre e) :
    vcuTemplate c k = .ok (e, pre.length) := by
  obtain ⟨hnone, -⟩ | ⟨pre', e', hfirst, htmpl⟩ := vcuTemplate_cases c k
  · exact absurd h.kind_eq (hnone e h.mem)
  · obtain ⟨rfl, rfl⟩ := h.unique hfirst
    exact htmpl

/-- R164: ENCODE once it has the first row of the kind: the encode direction's failure is passed on, and its payload
is serialized. -/
theorem vcuEncode_first_error {c : Config} {k : Kind} {pre : List Entry} {e : Entry} (h : FirstOfKind c k pre e)
    {prm : Params} {stop : Stop} (henc : codecEncode e.codec e.signature prm = .error stop) (snd rcv : Byte)
    (cap : Nat) (out : Memory) : vcuEncode c k prm snd rcv cap out = .error stop := by
  simp only [vcuEncode, vcuTemplate_first h, henc]

theorem vcuEncode_first_ok {c : Config} {k : Kind} {pre : List Entry} {e : Entry} (h : FirstOfKind c k pre e)
    {prm : Params} {p : List Byte} (henc : codecEncode e.codec e.signature prm = .ok p) (snd rcv : Byte)
    (cap : Nat) (out : Memory) : vcuEncode c k prm snd rcv cap out = vcuSerialize snd rcv p cap out := by
  simp only [vcuEncode, vcuTemplate_first h, henc]

theorem vcuEncode_unknown {c : Config} {k : Kind} (h : ∀ e ∈ c.rows, e.kind ≠ k) (prm : Params) (snd rcv : Byte)
    (cap : Nat) (out : Memory) : vcuEncode c k prm snd rcv cap out = .error (.raised .unknownKind) := by
  simp only [vcuEncode, vcuTemplate_unknown h]

/-- R36: a CODEC that raises nothing answers E_OK. -/
theorem vcuCodec_ok_status {dir : Dir} {d : CodecId} {work : List Byte} {prm : Params} {r : CodecResponse}
    (h : vcuCodec dir d work prm = .ok r) : r.status = .ok := by
  simp only [vcuCodec] at h
  split at h
  · cases h
  · split at h <;> split at h <;> cases h <;> rfl

/-- R105: EXTRACT answers on every stream. -/
theorem vcuExtract_total (c : Config) (buf : List Byte) : ∃ r, vcuExtract c buf = .ok r := by
  obtain h | ⟨rest, rfl⟩ | ⟨hdr, p, rest, rfl, hh, hp⟩ := stream_cases buf
  · exact ⟨_, vcuExtract_incomplete c buf h⟩
  · exact ⟨_, vcuExtract_atZero c rest⟩
  · rw [vcuExtract_frame c hdr p rest hh hp]
    split <;> exact ⟨_, rfl⟩

theorem vcuClassify_total {c : Config} (hw : c.wf = true) (p : List Byte) : ∃ r, vcuClassify c p = .ok r := by
  obtain ⟨-, h⟩ | ⟨_, _, _, -, -, h⟩ := vcuClassify_cases hw p <;> exact ⟨_, h⟩

/-! ## The answer of each request, from the answer of its function -/

section
variable {s : State} (hw : s.cfg.wf = true)
include hw

theorem exec_template_of_ok {k : Kind} {e : Entry} {row : Nat} (h : vcuTemplate s.cfg k = .ok (e, row)) :
    exec (.template k) s = .next (answered s (.template (.hit e row))) := by
  show execTemplate k s = _
  rw [execTemplate, whenConfigured_wf hw, h]
  rfl

theorem exec_template_of_error {k : Kind} {x : EncError} (h : vcuTemplate s.cfg k = .error x) :
    exec (.template k) s = .next (answered s (.template (.failed x))) := by
  show execTemplate k s = _
  rw [execTemplate, whenConfigured_wf hw, h]
  rfl

theorem exec_codec_of_ok {dir : Dir} {d : CodecId} {work : List Byte} {prm : Params} {r : CodecResponse}
    (h : vcuCodec dir d work prm = .ok r) : exec (.codec dir d work prm) s = .next (answered s (.codec r)) := by
  show execCodec dir d work prm s = _
  rw [execCodec, whenConfigured_wf hw, h]
  rfl

theorem exec_codec_of_raised {dir : Dir} {d : CodecId} {work : List Byte} {prm : Params} {x : EncError}
    (h : vcuCodec dir d work prm = .error (.raised x)) :
    exec (.codec dir d work prm) s = .next (answered s (.codec (.failed x))) := by
  show execCodec dir d work prm s = _
  rw [execCodec, whenConfigured_wf hw, h]
  rfl

theorem exec_serialize_of_raised {snd rcv : Byte} {p : List Byte} {out : OutBuffer} (hp : p.length ≤ s.cfg.cap)
    {x : EncError} (h : vcuSerialize snd rcv p out.capacity (callerOut out) = .error (.raised x)) :
    exec (.serialize snd rcv p out) s = .next (handedBack s (callerOut out) (.serialize (.failed x))) := by
  show execSerialize snd rcv p out s = _
  rw [execSerialize, whenConfigured_wf hw, if_neg (Nat.not_lt.mpr hp), h]
  rfl

theorem exec_encode_of_ok {k : Kind} {prm : Params} {snd rcv : Byte} {out : OutBuffer} {m : Memory}
    {r : EncodeResponse} (h : vcuEncode s.cfg k prm snd rcv out.capacity (callerOut out) = .ok (m, r)) :
    exec (.encode k prm snd rcv out) s = .next (handedBack s m (.encode r)) := by
  show execEncode k prm snd rcv out s = _
  rw [execEncode, whenConfigured_wf hw, h]
  rfl

theorem exec_encode_of_raised {k : Kind} {prm : Params} {snd rcv : Byte} {out : OutBuffer} {x : EncError}
    (h : vcuEncode s.cfg k prm snd rcv out.capacity (callerOut out) = .error (.raised x)) :
    exec (.encode k prm snd rcv out) s = .next (handedBack s (callerOut out) (.encode (.failed x))) := by
  show execEncode k prm snd rcv out s = _
  rw [execEncode, whenConfigured_wf hw, h]
  rfl

end

/-- R164: what ENCODE can do in a configured block: raise an error, or write the frame of the first row's encoded
signature into OUT and keep the bytes above. -/
theorem vcuEncode_outcome {c : Config} (hw : c.wf = true) (k : Kind) (prm : Params) (snd rcv : Byte) (cap : Nat)
    (out : Memory) :
    (∃ x, vcuEncode c k prm snd rcv cap out = .error (.raised x)) ∨
    ∃ pre e p m, FirstOfKind c k pre e ∧ codecEncode e.codec e.signature prm = .ok p ∧ p.length = e.length ∧
      (snd.toNat ≤ 7 ∧ rcv.toNat ≤ 15) ∧ p.length + 2 ≤ cap ∧
      vcuEncode c k prm snd rcv cap out = .ok (m, .done (headerByte snd rcv :: (p ++ [terminator]))) ∧
      (∀ j, m.read j = if j < p.length + 2 then (headerByte snd rcv :: (p ++ [terminator]))[j]? else out.read j) ∧
      (Memory.wf out = true → Memory.wf m = true) := by
  obtain ⟨hnone, -⟩ | ⟨pre, e, hfirst, -⟩ := vcuTemplate_cases c k
  · exact .inl ⟨_, vcuEncode_unknown hnone ..⟩
  obtain ⟨-, hsig, hmin⟩ := Entry.wf_lengths (Config.wf_rows hw e hfirst.mem)
  obtain ⟨x, -, henc⟩ | ⟨p, -, -, henc, hlen⟩ := codecEncode_cases e.codec e.signature prm (by omega)
  · exact .inl ⟨x, vcuEncode_first_error hfirst henc ..⟩
  rw [vcuEncode_first_ok hfirst henc]
  obtain ⟨-, hser⟩ | ⟨-, -, hser⟩ | ⟨haddr, hroom, m, hser, hread, hwf⟩ := vcuSerialize_cases snd rcv p cap out
  · exact .inl ⟨_, hser⟩
  · exact .inl ⟨_, hser⟩
  · exact .inr ⟨pre, e, p, m, hfirst, henc, hlen.trans hsig, haddr, hroom, hser, hread, hwf⟩

/-- R4, R43, R68: what a request operation answers in a configured block is a matter of the configuration and the
request alone. -/
theorem exec_request {i : Instr} (hi : wireBytes i = []) {c : Config} (hw : c.wf = true)
    (hfits : ∀ snd rcv p out, i = .serialize snd rcv p out → p.length ≤ c.cap) :
    ∃ own r, RequestOutcome c i own r ∧ ∀ s : State, s.cfg = c → exec i s = .next (s.requested own r) := by
  have plain : ∀ {i : Instr} {r : Response}, RequestOutcome c i [] r →
      (∀ s : State, s.cfg = c → exec i s = .next (answered s r)) →
      ∃ own r, RequestOutcome c i own r ∧ ∀ s : State, s.cfg = c → exec i s = .next (s.requested own r) :=
    fun {_ r} ho hx => ⟨[], r, ho, fun s hs => by rw [hx s hs, answered_eq_requested]⟩
  cases i, hi using request_cases with
  | extract buf =>
    obtain ⟨r, hr⟩ := vcuExtract_total c buf
    exact plain (.extract buf r) fun s hs => by subst hs; exact exec_extract_of_ok hw hr
  | classify p =>
    obtain ⟨r, hr⟩ := vcuClassify_total hw p
    exact plain (.classify p r) fun s hs => by subst hs; exact exec_classify_of_ok hw hr
  | decode buf =>
    obtain ⟨r, hr⟩ := vcuDecode_total c hw buf
    exact plain (.decode buf r) fun s hs => by subst hs; exact exec_decode_of_ok hw hr
  | template k =>
    obtain ⟨-, hx⟩ | ⟨pre, e, -, hr⟩ := vcuTemplate_cases c k
    · exact plain (.templateFailed k _) fun s hs => by subst hs; exact exec_template_of_error hw hx
    · exact plain (.templateHit k e _) fun s hs => by subst hs; exact exec_template_of_ok hw hr
  | codec dir d work prm =>
    obtain ⟨x, hx⟩ | ⟨r, hr⟩ := vcuCodec_cases dir d work prm
    · exact plain (.codecFailed dir d work prm x) fun s hs => by subst hs; exact exec_codec_of_raised hw hx
    · exact plain (.codecDone dir d work prm r (vcuCodec_ok_status hr)) fun s hs => by
        subst hs; exact exec_codec_of_ok hw hr
  | serialize snd rcv p out =>
    have hp := hfits snd rcv p out rfl
    obtain ⟨-, hx⟩ | ⟨-, -, hx⟩ | ⟨-, -, m, hr, hread, hwf⟩ :=
      vcuSerialize_cases snd rcv p out.capacity (callerOut out)
    · exact ⟨_, _, .serializeFailed snd rcv p out _, fun s hs => by
        subst hs; exact exec_serialize_of_raised hw hp hx⟩
    · exact ⟨_, _, .serializeFailed snd rcv p out _, fun s hs => by
        subst hs; exact exec_serialize_of_raised hw hp hx⟩
    · exact ⟨_, _, .serializeDone snd rcv p out m _ (hwf (callerOut_wf out)) (keepsOutFrom_of_read hread),
        fun s hs => by subst hs; exact exec_serialize_of_ok hw hp hr⟩
  | encode k prm snd rcv out =>
    obtain ⟨x, hx⟩ | ⟨pre, e, p, m, hfirst, -, hlen, -, -, hr, hread, hwf⟩ :=
      vcuEncode_outcome hw k prm snd rcv out.capacity (callerOut out)
    · exact ⟨_, _, .encodeFailed k prm snd rcv out x, fun s hs => by subst hs; exact exec_encode_of_raised hw hx⟩
    · exact ⟨_, _, .encodeDone k prm snd rcv out m _ pre e hfirst (hwf (callerOut_wf out))
          (hlen ▸ keepsOutFrom_of_read hread),
        fun s hs => by subst hs; exact exec_encode_of_ok hw hr⟩

/-- Every outcome of a request operation: the configuration is refused, or its payload is, or it answers. -/
theorem exec_request_cases {i : Instr} (hi : wireBytes i = []) (c : Config) :
    (∃ why, ∀ s : State, s.cfg = c → exec i s = .refused why) ∨
    ∃ own r, RequestOutcome c i own r ∧ ∀ s : State, s.cfg = c → exec i s = .next (s.requested own r) := by
  cases hw : c.wf with
  | false => exact .inl ⟨_, fun s hs => exec_illFormed (hs ▸ hw) i⟩
  | true =>
    by_cases hfits : ∀ snd rcv p out, i = .serialize snd rcv p out → p.length ≤ c.cap
    · exact .inr (exec_request hi hw hfits)
    · push Not at hfits
      obtain ⟨snd, rcv, p, out, rfl, hlong⟩ := hfits
      exact .inl ⟨_, fun s hs => overlongSerializePayloadIsRefused s snd rcv p out (hs ▸ hw) (hs ▸ hlong)⟩

/-- A request that answers: its outcome, and the state it leaves. -/
theorem exec_request_next {i : Instr} (hi : wireBytes i = []) {s t : State} (h : exec i s = .next t) :
    ∃ own r, RequestOutcome s.cfg i own r ∧ t = s.requested own r := by
  obtain ⟨why, hx⟩ | ⟨own, r, ho, hx⟩ := exec_request_cases hi s.cfg
  · rw [hx s rfl] at h; cases h
  · rw [hx s rfl] at h; cases h; exact ⟨own, r, ho, rfl⟩

/-! ## The obligations about requests -/

/-- Settles O47: the outcome names the request's own buffer. -/
theorem requestLeavesTheHarnessAlone : Obligations.RequestLeavesTheHarnessAlone := by
  intro i s t hi h
  obtain ⟨own, r, ho, rfl⟩ := exec_request_next hi h
  refine ⟨⟨r, own, rfl⟩, fun hser henc => ?noOut, fun a b p out he => ?serialize, fun k p a b out he => ?encode⟩
  case noOut =>
    cases ho with
    | serializeDone | serializeFailed => exact absurd rfl (hser _ _ _ _)
    | encodeDone | encodeFailed => exact absurd rfl (henc _ _ _ _ _)
    | _ => exact List.append_nil _
  case serialize =>
    subst he
    cases ho with
    | serializeDone _ _ _ _ m _ _ hkeep => exact ⟨m, rfl, hkeep⟩
    | serializeFailed => exact ⟨_, rfl, callerOut_keeps _ out⟩
  case encode =>
    subst he
    cases ho with
    | encodeDone _ _ _ _ _ m _ pre e hfirst _ hkeep =>
      refine ⟨m, rfl, fun hnone => absurd hfirst.kind_eq (hnone e hfirst.mem), fun pre' e' hfirst' => ?_⟩
      obtain ⟨-, rfl⟩ := hfirst.unique hfirst'
      exact hkeep
    | encodeFailed => exact ⟨_, rfl, fun _ => callerOut_keeps _ out, fun _ _ _ => callerOut_keeps _ out⟩

/-- Settles O48: two states with one configuration meet the same case of `exec_request_cases`. -/
theorem responsesDoNotDependOnHistory : Obligations.ResponsesDoNotDependOnHistory := by
  intro i s s' hi hcfg
  obtain ⟨why, hx⟩ | ⟨own, r, -, hx⟩ := exec_request_cases hi s.cfg
  · rw [hx s rfl, hx s' hcfg.symm]
    exact ⟨fun _ _ h => (nomatch h), ⟨fun ⟨_, h⟩ => (nomatch h), fun ⟨_, h⟩ => (nomatch h)⟩⟩
  · rw [hx s rfl, hx s' hcfg.symm]
    refine ⟨fun t t' h h' => ?_, ⟨fun _ => ⟨_, rfl⟩, fun _ => ⟨_, rfl⟩⟩⟩
    cases h
    cases h'
    exact ⟨r, own, rfl, rfl, rfl, rfl⟩

/-- Settles O60: the outcomes that report an error are the four failures. -/
theorem raisedErrorAnswersStatusAndLengthZero : Obligations.RaisedErrorAnswersStatusAndLengthZero := by
  intro i s t r e hi h hresp hraised
  obtain ⟨own, r', ho, rfl⟩ := exec_request_next hi h
  obtain rfl : r' = r := by simpa [State.requested] using hresp
  cases ho with
  | extract | classify | decode | templateHit | serializeDone | encodeDone => cases hraised
  | codecDone _ _ _ _ r hr => simp [Response.raised?, hr, EStatus.raised?] at hraised
  | templateFailed k =>
    cases hraised
    exact .inl ⟨k, rfl, rfl, List.append_nil _⟩
  | codecFailed dir d work prm =>
    cases hraised
    exact .inr (.inl ⟨dir, d, work, prm, rfl, rfl, List.append_nil _⟩)
  | serializeFailed snd rcv p out =>
    cases hraised
    exact .inr (.inr (.inl ⟨snd, rcv, p, out, _, rfl, rfl, rfl, callerOut_keeps 0 out⟩))
  | encodeFailed k prm snd rcv out =>
    cases hraised
    exact .inr (.inr (.inr ⟨k, prm, snd, rcv, out, _, rfl, rfl, rfl, callerOut_keeps 0 out⟩))

end Sys2Proof.Machine

/-! The parameter codecs (42_param_codecs.md). Each codec is given once by an equation for each direction, on a work
buffer written out as far as the codec reaches (R136 to R151); the check of R154 is given once for all codecs. -/

namespace Sys2Proof.Machine

/-! ## Digits -/

/-- R82, R134: digit `k` of a value is a nibble of it, zero-extended. -/
theorem digit_eq_nib {n : Nat} (v : BitVec n) (k : Nat) : digit v.toNat k = nib 0 (v.extractLsb' (4 * k) 4) := by
  apply BitVec.eq_of_toNat_eq
  have hpow : (2 : Nat) ^ (4 * k) = 16 ^ k := by rw [pow_mul]; rfl
  have hnib : ∀ d : Nibble, (nib 0 d).toNat = d.toNat := by decide
  rw [hnib, digit, BitVec.extractLsb'_toNat, Nat.shiftRight_eq_div_pow, hpow, BitVec.toNat_ofNat]
  omega

theorem digit_zero_eq (b : Byte) : digit b.toNat 0 = nib 0 (low b) := digit_eq_nib b 0

/-- R133: two digits read as a number. -/
theorem ofNat_digitValue_two (a b : Byte) : BitVec.ofNat 8 (digitValue [a, b]) = low a ++ low b :=
  BitVec.eq_of_toNat_eq (by rw [toNat_low_append_low, BitVec.toNat_ofNat]; simp [digitValue]; omega)

/-- R133: four digits read as a number. -/
theorem ofNat_digitValue_four (a b c d : Byte) : BitVec.ofNat 16 (digitValue [a, b, c, d]) = quad a b c d :=
  BitVec.eq_of_toNat_eq (by rw [toNat_quad, BitVec.toNat_ofNat]; simp [digitValue]; omega)

/-- R82: a value of one digit is its own low nibble. -/
theorem nib_low_of_le {w : Byte} (h : w.toNat ≤ 15) : nib 0 (low w) = w := by
  have all : ∀ w : Byte, w.toNat ≤ 15 → nib 0 (low w) = w := by decide
  exact all w h

theorem lowBits_eq_low (b : Byte) : lowBits b = low b :=
  BitVec.eq_of_toNat_eq (by rw [toNat_low, lowBits, BitVec.toNat_ofNat]; omega)

/-- R18, R152: adding a nibble to a byte modulo 256. -/
theorem ofNat_add_nibble (a : Byte) (z : Nibble) : BitVec.ofNat 8 (a.toNat + z.toNat) = a + nib 0 z := by
  have hnib : ∀ d : Nibble, (nib 0 d).toNat = d.toNat := by decide
  exact BitVec.eq_of_toNat_eq (by rw [BitVec.toNat_ofNat, BitVec.toNat_add, hnib])

theorem ofNat_add_byte (a b : Byte) : BitVec.ofNat 8 (a.toNat + b.toNat) = a + b :=
  BitVec.eq_of_toNat_eq (by rw [BitVec.toNat_ofNat, BitVec.toNat_add])

/-! ## The check -/

/-- R154: what CODEC_CHECK answers. -/
theorem codecCheck_of_passes {c : CodecId} {prm : Params} (h : CheckPasses c prm) : codecCheck c prm = .ok () := by
  obtain rfl | ⟨hshape, hrange⟩ := h
  · rfl
  · unfold codecCheck
    split
    · rfl
    · rw [if_neg (not_not.mpr hshape)]
      split
      · exact if_neg fun hv => hrange ⟨.inl rfl, hv⟩
      · exact if_neg fun hv => hrange ⟨.inr rfl, hv⟩
      · rfl

theorem codecCheck_shape {c : CodecId} {prm : Params} (hc : c ≠ .none) (h : prm.shape ≠ codecShape c) :
    codecCheck c prm = .error .paramShape := by
  unfold codecCheck
  rw [if_neg hc, if_pos h]

theorem codecCheck_range {c : CodecId} {prm : Params} (hc : c = .pCmd ∨ c = .pRsp) (h : AboveDigit prm) :
    codecCheck c prm = .error .paramRange := by
  cases prm with
  | oneByte v =>
    have hv : v.toNat > 15 := h
    obtain rfl | rfl := hc <;> simp [codecCheck, Params.shape, codecShape, hv]
  | _ => exact absurd h id

/-! ## The decode direction -/

section
variable (a b c d e f g i j k l v w x y : Byte) (rest : List Byte)

theorem codecDecode_byteCmd : codecDecode .byteCmd (a :: b :: c :: v :: rest) = .ok (.oneByte v) := rfl
theorem codecDecode_byteRsp : codecDecode .byteRsp (a :: v :: rest) = .ok (.oneByte v) := rfl
theorem codecDecode_pCmd : codecDecode .pCmd (a :: b :: c :: v :: rest) = .ok (.oneByte (nib 0 (low v))) := rfl
theorem codecDecode_pRsp : codecDecode .pRsp (a :: v :: rest) = .ok (.oneByte (nib 0 (low v))) := rfl
theorem codecDecode_pqCmd :
    codecDecode .pqCmd (a :: b :: c :: d :: e :: rest) = .ok (.oneByte (low d ++ low e)) := rfl
theorem codecDecode_pqRsp : codecDecode .pqRsp (a :: d :: e :: rest) = .ok (.oneByte (low d ++ low e)) := rfl
theorem codecDecode_pqrsCmd :
    codecDecode .pqrsCmd (a :: b :: c :: d :: e :: f :: g :: rest) = .ok (.twoByte (quad d e f g)) := rfl
theorem codecDecode_pqrsRsp :
    codecDecode .pqrsRsp (a :: d :: e :: f :: g :: rest) = .ok (.twoByte (quad d e f g)) := rfl
theorem codecDecode_ptAbs :
    codecDecode .ptAbs (a :: b :: c :: v :: w :: d :: e :: f :: g :: i :: j :: k :: l :: rest) =
      .ok (.ptPosition v w (quad d e f g) (quad i j k l)) := rfl
theorem codecDecode_ptResp :
    codecDecode .ptResp (a :: d :: e :: f :: g :: i :: j :: k :: l :: rest) =
      .ok (.ptPosition 0 0 (quad d e f g) (quad i j k l)) := rfl
theorem codecDecode_ptDrive :
    codecDecode .ptDrive (a :: b :: c :: v :: w :: x :: y :: rest) = .ok (.ptDrive v w x y) := rfl
theorem codecDecode_socket : codecDecode .socket (a :: rest) = .ok (.socket (low a)) := rfl
theorem codecDecode_error : codecDecode .error (a :: b :: rest) = .ok (.errorReply (low a) b) := rfl
theorem codecDecode_camnum : codecDecode .camnum (a :: b :: rest) = .ok (.cameraNumber (low b)) := rfl
theorem codecDecode_memory :
    codecDecode .memory (a :: b :: c :: v :: w :: rest) = .ok (.memory w v) := rfl
end

/-! ## The encode direction -/

/-- R155: the check, then the writes. -/
theorem codecEncode_of_write {c : CodecId} {b b' : List Byte} {prm : Params} (hcheck : CheckPasses c prm)
    (hwrite : codecWrite c b prm = .ok b') : codecEncode c b prm = .ok b' := by
  rw [codecEncode, codecCheck_of_passes hcheck, hwrite]

theorem codecEncode_of_error {c : CodecId} {prm : Params} {x : EncError} (b : List Byte)
    (hcheck : codecCheck c prm = .error x) : codecEncode c b prm = .error (.raised x) := by
  rw [codecEncode, hcheck]

/-- R154: a codec other than the two P codecs has its shape checked only. -/
theorem checkPasses_of_shape {c : CodecId} {prm : Params} (hshape : prm.shape = codecShape c)
    (hc : ¬ (c = .pCmd ∨ c = .pRsp)) : CheckPasses c prm := .inr ⟨hshape, fun h => hc h.1⟩

section
variable (a b c d e f g i j k l v w x y : Byte) (rest : List Byte)

theorem codecWrite_byteCmd (u : Byte) :
    codecWrite .byteCmd (a :: b :: c :: v :: rest) (.oneByte u) = .ok (a :: b :: c :: u :: rest) := by
  simp [codecWrite, memWrite]

theorem codecWrite_byteRsp (u : Byte) :
    codecWrite .byteRsp (a :: v :: rest) (.oneByte u) = .ok (a :: u :: rest) := by
  simp [codecWrite, memWrite]

theorem codecWrite_pCmd (u : Byte) :
    codecWrite .pCmd (a :: b :: c :: v :: rest) (.oneByte u) =
      .ok (a :: b :: c :: (v ||| nib 0 (low u)) :: rest) := by
  simp [codecWrite, orDigit, memRead, memWrite, bind, Except.bind]

theorem codecWrite_pRsp (u : Byte) :
    codecWrite .pRsp (a :: v :: rest) (.oneByte u) = .ok (a :: (v ||| nib 0 (low u)) :: rest) := by
  simp [codecWrite, orDigit, memRead, memWrite, bind, Except.bind]

theorem codecWrite_pqCmd (u : Byte) :
    codecWrite .pqCmd (a :: b :: c :: d :: e :: rest) (.oneByte u) =
      .ok (a :: b :: c :: (d ||| digit u.toNat 1) :: (e ||| digit u.toNat 0) :: rest) := by
  simp [codecWrite, pack2, orDigit, memRead, memWrite, bind, Except.bind, digit_eq_nib]

theorem codecWrite_pqRsp (u : Byte) :
    codecWrite .pqRsp (a :: d :: e :: rest) (.oneByte u) =
      .ok (a :: (d ||| digit u.toNat 1) :: (e ||| digit u.toNat 0) :: rest) := by
  simp [codecWrite, pack2, orDigit, memRead, memWrite, bind, Except.bind, digit_eq_nib]

theorem codecWrite_pqrsCmd (u : Half) :
    codecWrite .pqrsCmd (a :: b :: c :: d :: e :: f :: g :: rest) (.twoByte u) =
      .ok (a :: b :: c :: (d ||| digit u.toNat 3) :: (e ||| digit u.toNat 2) :: (f ||| digit u.toNat 1) ::
        (g ||| digit u.toNat 0) :: rest) := by
  simp [codecWrite, pack4, orDigit, memRead, memWrite, bind, Except.bind, digit_eq_nib]

theorem codecWrite_pqrsRsp (u : Half) :
    codecWrite .pqrsRsp (a :: d :: e :: f :: g :: rest) (.twoByte u) =
      .ok (a :: (d ||| digit u.toNat 3) :: (e ||| digit u.toNat 2) :: (f ||| digit u.toNat 1) ::
        (g ||| digit u.toNat 0) :: rest) := by
  simp [codecWrite, pack4, orDigit, memRead, memWrite, bind, Except.bind, digit_eq_nib]

theorem codecWrite_ptAbs (panSpeed tiltSpeed : Byte) (pan tilt : Half) :
    codecWrite .ptAbs (a :: b :: c :: v :: w :: d :: e :: f :: g :: i :: j :: k :: l :: rest)
        (.ptPosition panSpeed tiltSpeed pan tilt) =
      .ok (a :: b :: c :: panSpeed :: tiltSpeed ::
        (d ||| digit pan.toNat 3) :: (e ||| digit pan.toNat 2) :: (f ||| digit pan.toNat 1) ::
        (g ||| digit pan.toNat 0) ::
        (i ||| digit tilt.toNat 3) :: (j ||| digit tilt.toNat 2) :: (k ||| digit tilt.toNat 1) ::
        (l ||| digit tilt.toNat 0) :: rest) := by
  simp [codecWrite, pack4, orDigit, memRead, memWrite, bind, Except.bind, digit_eq_nib]

theorem codecWrite_ptResp (panSpeed tiltSpeed : Byte) (pan tilt : Half) :
    codecWrite .ptResp (a :: d :: e :: f :: g :: i :: j :: k :: l :: rest)
        (.ptPosition panSpeed tiltSpeed pan tilt) =
      .ok (a :: (d ||| digit pan.toNat 3) :: (e ||| digit pan.toNat 2) :: (f ||| digit pan.toNat 1) ::
        (g ||| digit pan.toNat 0) ::
        (i ||| digit tilt.toNat 3) :: (j ||| digit tilt.toNat 2) :: (k ||| digit tilt.toNat 1) ::
        (l ||| digit tilt.toNat 0) :: rest) := by
  simp [codecWrite, pack4, orDigit, memRead, memWrite, bind, Except.bind, digit_eq_nib]

theorem codecWrite_ptDrive (v' w' x' y' : Byte) :
    codecWrite .ptDrive (a :: b :: c :: v :: w :: x :: y :: rest) (.ptDrive v' w' x' y') =
      .ok (a :: b :: c :: v' :: w' :: x' :: y' :: rest) := by
  simp [codecWrite, memWrite, bind, Except.bind]

theorem codecWrite_socket (z : Nibble) :
    codecWrite .socket (a :: rest) (.socket z) = .ok ((a + nib 0 z) :: rest) := by
  simp [codecWrite, addByte, memRead, memWrite, bind, Except.bind]

theorem codecWrite_error (z : Nibble) (code : Byte) :
    codecWrite .error (a :: b :: rest) (.errorReply z code) = .ok ((a + nib 0 z) :: (b + code) :: rest) := by
  simp [codecWrite, addByte, memRead, memWrite, bind, Except.bind]

theorem codecWrite_camnum (z : Nibble) :
    codecWrite .camnum (a :: b :: rest) (.cameraNumber z) = .ok (a :: (b + nib 0 z) :: rest) := by
  simp [codecWrite, addByte, memRead, memWrite, bind, Except.bind]

theorem codecWrite_memory (index mode : Byte) :
    codecWrite .memory (a :: b :: c :: v :: w :: rest) (.memory index mode) =
      .ok (a :: b :: c :: v :: index :: rest) := by
  simp [codecWrite, memWrite]
end

theorem codecWrite_none (b : List Byte) (prm : Params) : codecWrite .none b prm = .ok b := by
  cases prm <;> rfl

/-! ## The CODEC request -/

/-- R153, R167: on a buffer that reaches the fields the request is the codec. -/
theorem codecDecodes_of_ok {c : CodecId} {work : List Byte} {prm : Params} (hlen : c.minLen ≤ work.length)
    (h : codecDecode c work = .ok prm) : CodecDecodes c work prm := fun s unread hw =>
  exec_codec_of_ok hw (r := .decoded prm) (by simp only [vcuCodec, if_neg (Nat.not_lt.mpr hlen), h])

theorem codecEncodes_of_write {c : CodecId} {work work' : List Byte} {prm : Params}
    (hlen : c.minLen ≤ work.length) (hcheck : CheckPasses c prm) (h : codecWrite c work prm = .ok work') :
    CodecEncodes c work prm work' := fun s hw =>
  exec_codec_of_ok hw (r := .encoded work')
    (by simp only [vcuCodec, if_neg (Nat.not_lt.mpr hlen), codecEncode_of_write hcheck h])

theorem codecFails_of_check {c : CodecId} {work : List Byte} {prm : Params} {x : EncError}
    (hlen : c.minLen ≤ work.length) (h : codecCheck c prm = .error x) : CodecFails .encode c work prm x :=
  fun s hw => exec_codec_of_raised hw
    (by simp only [vcuCodec, if_neg (Nat.not_lt.mpr hlen), codecEncode_of_error work h])

theorem rejectsOtherShapes {c : CodecId} {work : List Byte} (hlen : c.minLen ≤ work.length) (hc : c ≠ .none) :
    RejectsOtherShapes c work (codecShape c) := fun _ hshape =>
  codecFails_of_check hlen (codecCheck_shape hc hshape)

/-- R135, R154: the three clauses of a codec with one field and no bound on it. -/
theorem codec_clauses {α : Type} {c : CodecId} {work : List Byte} {prm : Params} {enc : α → Params}
    {work' : α → List Byte} (hlen : c.minLen ≤ work.length) (hdec : codecDecode c work = .ok prm)
    (hshape : ∀ x, (enc x).shape = codecShape c) (hp : ¬ (c = .pCmd ∨ c = .pRsp)) (hc : c ≠ .none)
    (hwrite : ∀ x, codecWrite c work (enc x) = .ok (work' x)) :
    CodecDecodes c work prm ∧ (∀ x, CodecEncodes c work (enc x) (work' x)) ∧
      RejectsOtherShapes c work (codecShape c) :=
  ⟨codecDecodes_of_ok hlen hdec,
    fun x => codecEncodes_of_write hlen (checkPasses_of_shape (hshape x) hp) (hwrite x), rejectsOtherShapes hlen hc⟩

/-- Settles O24. -/
theorem fullByteCodecsReadAndAssignOneByte : Obligations.FullByteCodecsReadAndAssignOneByte :=
  ⟨fun _ _ _ _ _ => codec_clauses (by simp [CodecId.minLen]) (codecDecode_byteCmd ..) (fun _ => rfl) (by simp)
      (by simp) (codecWrite_byteCmd _ _ _ _ _),
    fun _ _ _ => codec_clauses (by simp [CodecId.minLen]) (codecDecode_byteRsp ..) (fun _ => rfl) (by simp)
      (by simp) (codecWrite_byteRsp _ _ _)⟩

/-- A one-digit value passes the check of a P codec. -/
theorem checkPasses_digit {c : CodecId} (hc : codecShape c = .oneByte) {w : Byte} (hw : w.toNat ≤ 15) :
    CheckPasses c (.oneByte w) := .inr ⟨hc.symm, fun h => absurd h.2 (Nat.not_lt.mpr hw)⟩

/-- Settles O25. -/
theorem nibbleCodecsReadAndOrOneDigit : Obligations.NibbleCodecsReadAndOrOneDigit := by
  refine ⟨fun a b c v rest => ?cmd, fun a v rest => ?rsp⟩
  case cmd =>
    have hlen : CodecId.pCmd.minLen ≤ (a :: b :: c :: v :: rest).length := by simp [CodecId.minLen]
    refine ⟨codecDecodes_of_ok hlen ?_, fun w hw => codecEncodes_of_write hlen (checkPasses_digit rfl hw) ?_,
      fun w hw => codecFails_of_check hlen (codecCheck_range (.inl rfl) hw), rejectsOtherShapes hlen (by simp)⟩
    · rw [digit_zero_eq, codecDecode_pCmd]
    · rw [codecWrite_pCmd, nib_low_of_le hw]
  case rsp =>
    have hlen : CodecId.pRsp.minLen ≤ (a :: v :: rest).length := by simp [CodecId.minLen]
    refine ⟨codecDecodes_of_ok hlen ?_, fun w hw => codecEncodes_of_write hlen (checkPasses_digit rfl hw) ?_,
      fun w hw => codecFails_of_check hlen (codecCheck_range (.inr rfl) hw), rejectsOtherShapes hlen (by simp)⟩
    · rw [digit_zero_eq, codecDecode_pRsp]
    · rw [codecWrite_pRsp, nib_low_of_le hw]

/-- Settles O26. -/
theorem packedCodecsReadAndOrTheirDigits : Obligations.PackedCodecsReadAndOrTheirDigits := by
  simp only [Obligations.PackedCodecsReadAndOrTheirDigits, ofNat_digitValue_two, ofNat_digitValue_four]
  refine ⟨fun a b c d e rest => ?pqCmd, fun a d e rest => ?pqRsp, fun a b c d e f g rest => ?pqrsCmd,
    fun a d e f g rest => ?pqrsRsp⟩
  case pqCmd =>
    exact codec_clauses (by simp [CodecId.minLen]) (codecDecode_pqCmd ..) (fun _ => rfl) (by simp) (by simp)
      (codecWrite_pqCmd _ _ _ _ _ _)
  case pqRsp =>
    exact codec_clauses (by simp [CodecId.minLen]) (codecDecode_pqRsp ..) (fun _ => rfl) (by simp) (by simp)
      (codecWrite_pqRsp _ _ _ _)
  case pqrsCmd =>
    exact codec_clauses (by simp [CodecId.minLen]) (codecDecode_pqrsCmd ..) (fun _ => rfl) (by simp) (by simp)
      (codecWrite_pqrsCmd _ _ _ _ _ _ _ _)
  case pqrsRsp =>
    exact codec_clauses (by simp [CodecId.minLen]) (codecDecode_pqrsRsp ..) (fun _ => rfl) (by simp) (by simp)
      (codecWrite_pqrsRsp _ _ _ _ _ _)

/-- Settles O27. -/
theorem panTiltCodecsReadAndWriteTheirFields : Obligations.PanTiltCodecsReadAndWriteTheirFields := by
  simp only [Obligations.PanTiltCodecsReadAndWriteTheirFields, ofNat_digitValue_four]
  refine ⟨fun a b c v w d e f g i j k l rest => ?ptAbs, fun a b c v w x y rest => ?ptDrive⟩
  case ptAbs =>
    have hlen : CodecId.ptAbs.minLen ≤
        (a :: b :: c :: v :: w :: d :: e :: f :: g :: i :: j :: k :: l :: rest).length := by simp [CodecId.minLen]
    exact ⟨codecDecodes_of_ok hlen (codecDecode_ptAbs ..),
      fun _ _ _ _ => codecEncodes_of_write hlen (checkPasses_of_shape rfl (by simp)) (codecWrite_ptAbs ..),
      rejectsOtherShapes hlen (by simp)⟩
  case ptDrive =>
    have hlen : CodecId.ptDrive.minLen ≤ (a :: b :: c :: v :: w :: x :: y :: rest).length := by
      simp [CodecId.minLen]
    exact ⟨codecDecodes_of_ok hlen (codecDecode_ptDrive ..),
      fun _ _ _ _ => codecEncodes_of_write hlen (checkPasses_of_shape rfl (by simp)) (codecWrite_ptDrive ..),
      rejectsOtherShapes hlen (by simp)⟩

/-- Settles O28: NONE passes every parameter value; the ignored fields do not stand in what is written. -/
theorem partlyReadOnlyCodecs : Obligations.PartlyReadOnlyCodecs := by
  simp only [Obligations.PartlyReadOnlyCodecs, ofNat_digitValue_four]
  refine ⟨fun work prm => ?none, fun a d e f g i j k l rest => ?ptResp, fun a b c m n rest => ?memory⟩
  case none =>
    exact ⟨codecDecodes_of_ok (Nat.zero_le _) rfl,
      codecEncodes_of_write (Nat.zero_le _) (.inl rfl) (codecWrite_none ..)⟩
  case ptResp =>
    have hlen : CodecId.ptResp.minLen ≤ (a :: d :: e :: f :: g :: i :: j :: k :: l :: rest).length := by
      simp [CodecId.minLen]
    exact ⟨codecDecodes_of_ok hlen (codecDecode_ptResp ..),
      fun _ _ _ _ => codecEncodes_of_write hlen (checkPasses_of_shape rfl (by simp)) (codecWrite_ptResp ..),
      rejectsOtherShapes hlen (by simp)⟩
  case memory =>
    have hlen : CodecId.memory.minLen ≤ (a :: b :: c :: m :: n :: rest).length := by simp [CodecId.minLen]
    exact ⟨codecDecodes_of_ok hlen (codecDecode_memory ..),
      fun _ _ => codecEncodes_of_write hlen (checkPasses_of_shape rfl (by simp)) (codecWrite_memory ..),
      rejectsOtherShapes hlen (by simp)⟩

/-- Settles O29. -/
theorem additiveCodecsAddToTheirFields : Obligations.AdditiveCodecsAddToTheirFields := by
  simp only [Obligations.AdditiveCodecsAddToTheirFields, lowBits_eq_low, ofNat_add_nibble, ofNat_add_byte]
  refine ⟨fun a rest => ?socket, fun a b rest => ?camnum, fun a b rest => ?error⟩
  case socket =>
    exact codec_clauses (by simp [CodecId.minLen]) (codecDecode_socket ..) (fun _ => rfl) (by simp) (by simp)
      (codecWrite_socket _ _)
  case camnum =>
    exact codec_clauses (by simp [CodecId.minLen]) (codecDecode_camnum ..) (fun _ => rfl) (by simp) (by simp)
      (codecWrite_camnum _ _ _)
  case error =>
    have hlen : CodecId.error.minLen ≤ (a :: b :: rest).length := by simp [CodecId.minLen]
    exact ⟨codecDecodes_of_ok hlen (codecDecode_error ..),
      fun _ _ => codecEncodes_of_write hlen (checkPasses_of_shape rfl (by simp)) (codecWrite_error ..),
      rejectsOtherShapes hlen (by simp)⟩

/-- Settles O33: R285's example, from the socket codec's equations. -/
theorem codecEncodeIsNotIdempotent : Obligations.CodecEncodeIsNotIdempotent := by
  have encodes : ∀ a b : Byte, a + nib 0 1 = b → CodecEncodes .socket [a] (.socket 1) [b] := fun a b h =>
    codecEncodes_of_write (by simp [CodecId.minLen]) (checkPasses_of_shape rfl (by simp)) (h ▸ codecWrite_socket a [] 1)
  exact ⟨encodes _ _ (by decide), encodes _ _ (by decide),
    codecDecodes_of_ok (by simp [CodecId.minLen]) (codecDecode_socket 0x42 []), encodes _ _ (by decide)⟩

/-- R153, R154: on a buffer that holds the fields CODEC raises no capacity error. -/
theorem vcuCodec_ne_capacity {dir : Dir} {c : CodecId} {work : List Byte} (prm : Params)
    (hlen : c.minLen ≤ work.length) : vcuCodec dir c work prm ≠ .error (.raised .capacity) := by
  cases dir with
  | decode =>
    obtain ⟨p, hp⟩ := codecDecode_total c work hlen
    simp [vcuCodec, Nat.not_lt.mpr hlen, hp]
  | encode =>
    obtain ⟨x, hx, henc⟩ | ⟨p, -, -, henc, -⟩ := codecEncode_cases c work prm hlen
    · obtain rfl | rfl := codecCheck_error hx <;> simp [vcuCodec, Nat.not_lt.mpr hlen, henc]
    · simp [vcuCodec, Nat.not_lt.mpr hlen, henc]

/-- Settles O30. -/
theorem shortCodecBufferIsACapacityError : Obligations.ShortCodecBufferIsACapacityError := by
  refine ⟨rfl, fun dir c work prm hshort s hw => ?short, fun dir c work prm s t hlen h hresp => ?long⟩
  case short => exact exec_codec_of_raised hw (by simp only [vcuCodec, if_pos hshort])
  case long =>
    have hw : s.cfg.wf = true := by
      cases hw : s.cfg.wf with
      | true => rfl
      | false => rw [exec_illFormed hw] at h; cases h
    obtain ⟨x, hx⟩ | ⟨r, hr⟩ := vcuCodec_cases dir c work prm
    · rw [exec_codec_of_raised hw hx] at h
      cases h
      have hcap : x = .capacity := by simpa [answered, CodecResponse.failed] using hresp
      exact vcuCodec_ne_capacity prm hlen (hcap ▸ hx)
    · rw [exec_codec_of_ok hw hr] at h
      cases h
      have hstatus : r.status = .error .capacity := by
        have : r = ⟨.error .capacity, some 0, none, none⟩ := by simpa [answered] using hresp
        rw [this]
      rw [vcuCodec_ok_status hr] at hstatus
      cases hstatus

/-! ## pack2 and pack4 on any buffer -/

/-- R134: one digit ORed into one byte. -/
theorem orDigit_spec {b : List Byte} {i : Nat} (d : Nibble) (h : i < b.length) :
    ∃ b', orDigit b i d = .ok b' ∧ b'.length = b.length ∧
      ∀ k, b'.getD k 0 = if k = i then b.getD k 0 ||| nib 0 d else b.getD k 0 := by
  refine ⟨_, orDigit_ok d h, by simp, fun k => ?_⟩
  split
  · next hk => subst hk; simp [h]
  · next hk => simp [List.getD_eq_getElem?_getD, List.getElem?_set_ne (Ne.symm hk)]

/-- R134, N = 2. -/
theorem pack2_spec {b : List Byte} {o : Nat} (v : Byte) (h : o + 1 < b.length) :
    ∃ b', pack2 b o v = .ok b' ∧ b'.length = b.length ∧
      (∀ i < 2, b'.getD (o + i) 0 = b.getD (o + i) 0 ||| digit v.toNat (1 - i)) ∧
      ∀ k, k < o ∨ o + 2 ≤ k → b'.getD k 0 = b.getD k 0 := by
  obtain ⟨b₁, h₁, hl₁, hg₁⟩ := orDigit_spec (b := b) (i := o) (v.extractLsb' 4 4) (by omega)
  obtain ⟨b₂, h₂, hl₂, hg₂⟩ := orDigit_spec (b := b₁) (i := o + 1) (v.extractLsb' 0 4) (by omega)
  refine ⟨b₂, by rw [pack2, h₁]; exact h₂, by omega, fun i hi => ?_, fun k hk => ?_⟩
  · rw [digit_eq_nib, hg₂, hg₁]
    interval_cases i <;> simp
  · rw [hg₂, hg₁, if_neg (by omega), if_neg (by omega)]

/-- R134, N = 4. -/
theorem pack4_spec {b : List Byte} {o : Nat} (v : Half) (h : o + 3 < b.length) :
    ∃ b', pack4 b o v = .ok b' ∧ b'.length = b.length ∧
      (∀ i < 4, b'.getD (o + i) 0 = b.getD (o + i) 0 ||| digit v.toNat (3 - i)) ∧
      ∀ k, k < o ∨ o + 4 ≤ k → b'.getD k 0 = b.getD k 0 := by
  obtain ⟨b₁, h₁, hl₁, hg₁⟩ := orDigit_spec (b := b) (i := o) (v.extractLsb' 12 4) (by omega)
  obtain ⟨b₂, h₂, hl₂, hg₂⟩ := orDigit_spec (b := b₁) (i := o + 1) (v.extractLsb' 8 4) (by omega)
  obtain ⟨b₃, h₃, hl₃, hg₃⟩ := orDigit_spec (b := b₂) (i := o + 2) (v.extractLsb' 4 4) (by omega)
  obtain ⟨b₄, h₄, hl₄, hg₄⟩ := orDigit_spec (b := b₃) (i := o + 3) (v.extractLsb' 0 4) (by omega)
  refine ⟨b₄, ?_, by omega, fun i hi => ?_, fun k hk => ?_⟩
  · rw [pack4, h₁]
    show (orDigit b₁ (o + 1) _ >>= _) = _
    rw [h₂]
    show (orDigit b₂ (o + 2) _ >>= _) = _
    rw [h₃]
    exact h₄
  · rw [digit_eq_nib, hg₄, hg₃, hg₂, hg₁]
    interval_cases i <;> simp
  · rw [hg₄, hg₃, hg₂, hg₁, if_neg (by omega), if_neg (by omega), if_neg (by omega), if_neg (by omega)]

/-- A digit ORed over a zero low nibble is read back (R134). -/
theorem low_or_digit {n : Nat} {a : Byte} (ha : a.toNat % 16 = 0) (v : BitVec n) (k : Nat) :
    low (a ||| digit v.toNat k) = v.extractLsb' (4 * k) 4 := by
  have hlow : low a = 0 := BitVec.eq_of_toNat_eq (by rw [toNat_low, ha]; rfl)
  have hor : low (a ||| digit v.toNat k) = low a ||| low (digit v.toNat k) := BitVec.extractLsb'_or ..
  rw [hor, hlow, digit_eq_nib, low_nib]
  exact BitVec.zero_or

theorem unpack2_getD {b : List Byte} {o : Nat} (h : o + 1 < b.length) :
    unpack2 b o = .ok (low (b.getD (o + 0) 0) ++ low (b.getD (o + 1) 0)) := by
  rw [unpack2_ok h, List.getD_eq_getElem _ _ (by omega), List.getD_eq_getElem _ _ h]
  rfl

theorem unpack4_getD {b : List Byte} {o : Nat} (h : o + 3 < b.length) :
    unpack4 b o = .ok (low (b.getD (o + 0) 0) ++ low (b.getD (o + 1) 0) ++ low (b.getD (o + 2) 0) ++
      low (b.getD (o + 3) 0)) := by
  rw [unpack4_ok h, List.getD_eq_getElem _ _ (by omega), List.getD_eq_getElem _ _ (by omega),
    List.getD_eq_getElem _ _ (by omega), List.getD_eq_getElem _ _ h]
  rfl

/-- R84: a 16-bit value is its four digits. -/
theorem join_digits4 (v : Half) :
    v.extractLsb' 12 4 ++ v.extractLsb' 8 4 ++ v.extractLsb' 4 4 ++ v.extractLsb' 0 4 = v := by
  simpa only [quad, low_nib] using quad_digits4 v

/-- Settles O23. -/
theorem packOrsDigitsIntoLowNibbles : Obligations.PackOrsDigitsIntoLowNibbles := by
  refine fun b o => ⟨fun v h => ?two, fun v h => ?four⟩
  case two =>
    obtain ⟨b', hpack, hlen, hdigits, hother⟩ := pack2_spec v h
    refine ⟨b', hpack, hlen, hdigits, hother, fun hzero => ?_⟩
    have hlow : ∀ i < 2, low (b'.getD (o + i) 0) = v.extractLsb' (4 * (1 - i)) 4 := fun i hi => by
      rw [hdigits i hi, low_or_digit (hzero i hi)]
    rw [unpack2_getD (by omega), hlow 0 (by omega), hlow 1 (by omega)]
    exact congrArg _ (join_digits2 v)
  case four =>
    obtain ⟨b', hpack, hlen, hdigits, hother⟩ := pack4_spec v h
    refine ⟨b', hpack, hlen, hdigits, hother, fun hzero => ?_⟩
    have hlow : ∀ i < 4, low (b'.getD (o + i) 0) = v.extractLsb' (4 * (3 - i)) 4 := fun i hi => by
      rw [hdigits i hi, low_or_digit (hzero i hi)]
    rw [unpack4_getD (by omega), hlow 0 (by omega), hlow 1 (by omega), hlow 2 (by omega), hlow 3 (by omega)]
    exact congrArg _ (join_digits4 v)

end Sys2Proof.Machine

/-! The rows of the opcode table (44_msg_replies.md, 45_msg_ptz_lens.md, 46_msg_image.md). Every row of REF_REGISTRY is
of one of fifteen field layouts (R80): a fixed payload, or fixed bytes with full-byte fields, low nibbles or packed
digits at the offsets of its codec. For each layout one law says, for every value of the fields, that the payloads the
row matches are exactly those with such fields, and that codec, encoder and decoder agree on them. -/

namespace Sys2Proof.Machine

/-! ## Matching a row byte by byte -/

theorem and_mask_full (b : Byte) : b &&& 0xFF = b := BitVec.and_allOnes

/-- R16: bits 7:4 of a byte. -/
def high (b : Byte) : Nibble := b.extractLsb' 4 4

@[simp] theorem high_nib : ∀ hi lo : Nibble, high (nib hi lo) = hi := by decide

theorem nib_high_low : ∀ b : Byte, nib (high b) (low b) = b := by decide

theorem and_mask_high : ∀ b : Byte, b &&& 0xF0 = nib (high b) 0 := by decide

theorem and_mask_high_eq_iff (hi : Nibble) (b : Byte) : b &&& 0xF0 = nib hi 0 ↔ b = nib hi (low b) := by
  rw [and_mask_high]
  refine ⟨fun h => ?_, fun h => ?_⟩
  · have hhi : high b = hi := by simpa using congrArg high h
    rw [← hhi, nib_high_low]
  · rw [h, high_nib]

theorem matches_nil {k : Kind} {cd : CodecId} {p : List Byte} : Matches p ⟨0, [], [], k, cd⟩ ↔ p = [] := by
  simp only [Matches, List.length_eq_zero_iff]
  exact ⟨fun h => h.1, fun h => ⟨h, by simp [h]⟩⟩

/-- R121: the first byte under its mask, and the rest against the rest of the row. -/
theorem matches_cons {n : Nat} {s m : Byte} {sig mask : List Byte} {k : Kind} {cd : CodecId} {p : List Byte} :
    Matches p ⟨n + 1, s :: sig, m :: mask, k, cd⟩ ↔
      ∃ b q, p = b :: q ∧ b &&& m = s ∧ Matches q ⟨n, sig, mask, k, cd⟩ := by
  cases p with
  | nil => simp [Matches]
  | cons b q =>
    simp only [Matches, List.length_cons, Nat.add_right_cancel_iff, List.cons.injEq]
    refine ⟨fun ⟨hlen, hbytes⟩ =>
      ⟨b, q, ⟨rfl, rfl⟩, hbytes 0 (by omega), hlen, fun i hi => hbytes (i + 1) (by omega)⟩, ?_⟩
    rintro ⟨_, _, ⟨rfl, rfl⟩, hb, hlen, hbytes⟩
    refine ⟨hlen, fun i hi => ?_⟩
    cases i with
    | zero => exact hb
    | succ i => exact hbytes i (by omega)

/-- A byte all of whose bits are fixed. -/
theorem matches_fixedByte {n : Nat} {s : Byte} {sig mask : List Byte} {k : Kind} {cd : CodecId} {p : List Byte} :
    Matches p ⟨n + 1, s :: sig, 0xFF :: mask, k, cd⟩ ↔ ∃ q, p = s :: q ∧ Matches q ⟨n, sig, mask, k, cd⟩ := by
  simp only [matches_cons, and_mask_full]
  exact ⟨fun ⟨b, q, hp, hb, hq⟩ => ⟨q, hb ▸ hp, hq⟩, fun ⟨q, hp, hq⟩ => ⟨s, q, hp, rfl, hq⟩⟩

/-- A byte whose low nibble is a field (R82, R83). -/
theorem matches_lowNibble {n : Nat} (hi : Nibble) {sig mask : List Byte} {k : Kind} {cd : CodecId} {p : List Byte} :
    Matches p ⟨n + 1, nib hi 0 :: sig, 0xF0 :: mask, k, cd⟩ ↔
      ∃ d q, p = nib hi d :: q ∧ Matches q ⟨n, sig, mask, k, cd⟩ := by
  simp only [matches_cons, and_mask_high_eq_iff]
  refine ⟨fun ⟨b, q, hp, hb, hq⟩ => ⟨low b, q, hb ▸ hp, hq⟩, fun ⟨d, q, hp, hq⟩ => ⟨_, q, hp, ?_, hq⟩⟩
  rw [low_nib]

/-- A byte that holds a digit (R83, R84). -/
theorem matches_digit {n : Nat} {sig mask : List Byte} {k : Kind} {cd : CodecId} {p : List Byte} :
    Matches p ⟨n + 1, 0 :: sig, 0xF0 :: mask, k, cd⟩ ↔
      ∃ d q, p = nib 0 d :: q ∧ Matches q ⟨n, sig, mask, k, cd⟩ :=
  matches_lowNibble 0

/-- A byte that is a field (R81). -/
theorem matches_fullByte {n : Nat} {sig mask : List Byte} {k : Kind} {cd : CodecId} {p : List Byte} :
    Matches p ⟨n + 1, 0 :: sig, 0 :: mask, k, cd⟩ ↔ ∃ b q, p = b :: q ∧ Matches q ⟨n, sig, mask, k, cd⟩ := by
  simp [matches_cons]

/-- R83: any two nibbles are the digits of a byte. -/
theorem digits2_append (d e : Nibble) : digits2 (d ++ e) = [nib 0 d, nib 0 e] := by
  revert d e; decide

/-- R84: any four nibbles are the digits of a 16-bit value. -/
theorem digits4_append (d e f g : Nibble) : digits4 (d ++ e ++ f ++ g) = [nib 0 d, nib 0 e, nib 0 f, nib 0 g] := by
  have hval : (d ++ e ++ f ++ g).toNat = ((d.toNat * 16 + e.toNat) * 16 + f.toNat) * 16 + g.toNat := by
    simp only [toNat_append_nibble]
  have hd := d.isLt
  have he := e.isLt
  have hf := f.isLt
  have hg := g.isLt
  have digit_eq : ∀ (o : Nat) (x : Nibble), (d ++ e ++ f ++ g).toNat / 2 ^ o % 16 = x.toNat →
      (d ++ e ++ f ++ g).extractLsb' o 4 = x := fun o x h =>
    BitVec.eq_of_toNat_eq (by rw [BitVec.extractLsb'_toNat, Nat.shiftRight_eq_div_pow]; exact h)
  rw [digits4, digit_eq 12 d (by omega), digit_eq 8 e (by omega), digit_eq 4 f (by omega), digit_eq 0 g (by omega)]

/-! ## What a row is -/

/-- One row of REF_REGISTRY, for every value of its fields: the payloads it matches, what its codec reads and writes
there, and the instruction whose frame carries it. `pay` writes the fields into a payload, `prm` into a parameter
value and `f` into an instruction. -/
structure RowLaw {α : Type} (j : Nat) (e : Entry) (pay : α → List Byte) (prm : α → Params)
    (f : Header → α → Instr) : Prop where
  row : refRows[j]? = some e
  matches_iff : ∀ p, Matches p e ↔ ∃ x, p = pay x
  decodes : ∀ x, codecDecode e.codec (pay x) = .ok (prm x)
  encodes : ∀ x, codecEncode e.codec e.signature (prm x) = .ok (pay x)
  reads : ∀ h x, instrOfKind e.kind h (pay x) = some (f h x)
  writes : ∀ h x, wireBytes (f h x) = frame h (pay x)
  typed : ∀ h x, typedMessage (f h x) = some ⟨e.kind, prm x, h.sender, h.receiver⟩
  wf_iff : ∀ h x, (f h x).wf = true ↔ h.wf = true ∧ terminator ∉ pay x

/-- A constructor of the instructions is the meaning of row `j`. -/
def IsRow {α : Type} (j : Nat) (f : Header → α → Instr) : Prop := ∃ e pay prm, RowLaw j e pay prm f

/-- W5: a fixed byte of a row is not the terminator. -/
theorem refRows_signature_clean {j : Nat} {e : Entry} (h : refRows[j]? = some e) : terminator ∉ e.signature := by
  obtain ⟨-, -, -, -, -, hclean, -⟩ := Entry.wf_iff.mp (refRows_wf e (List.mem_of_getElem? h))
  exact hclean

theorem nib_zero_toNat_le : ∀ d : Nibble, (nib 0 d).toNat ≤ 15 := by decide
theorem nib_zero_or : ∀ hi lo : Nibble, nib hi 0 ||| nib 0 lo = nib hi lo := by decide
theorem nib_zero_add : ∀ hi lo : Nibble, nib hi 0 + nib 0 lo = nib hi lo := by decide

/-- Rows without a field (R136). -/
theorem IsRow.fixed {j : Nat} (sig : List Byte) {k : Kind} {f : Header → Instr}
    (hrow : refRows[j]? = some ⟨sig.length, sig, List.replicate sig.length 0xFF, k, .none⟩)
    (hf : ∀ h, instrOfKind k h sig = some (f h) ∧ wireBytes (f h) = frame h sig ∧
      typedMessage (f h) = some ⟨k, .none, h.sender, h.receiver⟩ ∧ (f h).wf = h.wf) :
    IsRow j fun h (_ : Unit) => f h := by
  have hmatch : ∀ (l p : List Byte), Matches p ⟨l.length, l, List.replicate l.length 0xFF, k, .none⟩ ↔ p = l := by
    intro l
    induction l with
    | nil => exact fun p => matches_nil
    | cons s l ih =>
      intro p
      rw [List.length_cons, List.replicate_succ, matches_fixedByte]
      exact ⟨fun ⟨q, hp, hq⟩ => by rw [hp, (ih q).mp hq], fun hp => ⟨l, hp, (ih l).mpr rfl⟩⟩
  have hclean : terminator ∉ sig := refRows_signature_clean hrow
  exact ⟨_, fun _ => sig, fun _ => .none, {
    row := hrow
    matches_iff := fun p => by rw [hmatch]; exact ⟨fun h => ⟨(), h⟩, fun ⟨_, h⟩ => h⟩
    decodes := fun _ => rfl
    encodes := fun _ => rfl
    reads := fun h _ => (hf h).1
    writes := fun h _ => (hf h).2.1
    typed := fun h _ => (hf h).2.2.1
    wf_iff := fun h _ => by rw [(hf h).2.2.2]; exact ⟨fun hh => ⟨hh, hclean⟩, fun hh => hh.1⟩ }⟩

theorem clean_of_append {p q : List Byte} (h : terminator ∉ p ++ q) : terminator ∉ p :=
  fun hp => h (List.mem_append_left q hp)

/-- A message whose fields cannot hold the terminator is well-formed when its header is. -/
theorem wf_iff_of_clean {i : Instr} {h : Header} {p : List Byte} (hi : i.wf = h.wf) (hp : terminator ∉ p) :
    i.wf = true ↔ h.wf = true ∧ terminator ∉ p := by
  rw [hi]
  exact ⟨fun hh => ⟨hh, hp⟩, And.left⟩

/-- A message whose last byte is its one full-byte field is well-formed when header and field are. -/
theorem wf_iff_of_field {i : Instr} {h : Header} {v : Byte} {p : List Byte} (hi : i.wf = (h.wf && fieldWf v))
    (hp : terminator ∉ p) : i.wf = true ↔ h.wf = true ∧ terminator ∉ p ++ [v] := by
  rw [hi, Bool.and_eq_true, fieldWf_iff, ne_comm]
  simp [hp]

/-- Rows with a full byte at offset 3 (R137). -/
theorem IsRow.byteAt3 {j : Nat} (a b c : Byte) {k : Kind} {f : Header → Byte → Instr}
    (hrow : refRows[j]? = some ⟨4, [a, b, c, 0], [0xFF, 0xFF, 0xFF, 0], k, .byteCmd⟩)
    (hf : ∀ h v, instrOfKind k h [a, b, c, v] = some (f h v) ∧ wireBytes (f h v) = frame h [a, b, c, v] ∧
      typedMessage (f h v) = some ⟨k, .oneByte v, h.sender, h.receiver⟩ ∧ (f h v).wf = (h.wf && fieldWf v)) :
    IsRow j f := by
  have hclean : terminator ∉ [a, b, c] := clean_of_append (q := [0]) (refRows_signature_clean hrow)
  refine ⟨_, fun v => [a, b, c, v], .oneByte, {
    row := hrow
    matches_iff := fun p => ?_
    decodes := fun v => rfl
    encodes := fun v => codecEncode_of_write (checkPasses_of_shape rfl (by simp)) (codecWrite_byteCmd ..)
    reads := fun h v => (hf h v).1
    writes := fun h v => (hf h v).2.1
    typed := fun h v => (hf h v).2.2.1
    wf_iff := fun h v => wf_iff_of_field (hf h v).2.2.2 hclean }⟩
  simp only [matches_fixedByte, matches_fullByte, matches_nil]
  constructor
  · rintro ⟨_, rfl, _, rfl, _, rfl, v, _, rfl, rfl⟩
    exact ⟨v, rfl⟩
  · rintro ⟨v, rfl⟩
    exact ⟨_, rfl, _, rfl, _, rfl, _, _, rfl, rfl⟩

/-- Rows with a full byte at offset 4, the memory codec's (R151). -/
theorem IsRow.byteAt4 {j : Nat} (a b c m : Byte) {k : Kind} {f : Header → Byte → Instr}
    (hrow : refRows[j]? = some ⟨5, [a, b, c, m, 0], [0xFF, 0xFF, 0xFF, 0xFF, 0], k, .memory⟩)
    (hf : ∀ h v, instrOfKind k h [a, b, c, m, v] = some (f h v) ∧ wireBytes (f h v) = frame h [a, b, c, m, v] ∧
      typedMessage (f h v) = some ⟨k, .memory v m, h.sender, h.receiver⟩ ∧ (f h v).wf = (h.wf && fieldWf v)) :
    IsRow j f := by
  have hclean : terminator ∉ [a, b, c, m] := clean_of_append (q := [0]) (refRows_signature_clean hrow)
  refine ⟨_, fun v => [a, b, c, m, v], fun v => .memory v m, {
    row := hrow
    matches_iff := fun p => ?_
    decodes := fun v => rfl
    encodes := fun v => codecEncode_of_write (checkPasses_of_shape rfl (by simp)) (codecWrite_memory ..)
    reads := fun h v => (hf h v).1
    writes := fun h v => (hf h v).2.1
    typed := fun h v => (hf h v).2.2.1
    wf_iff := fun h v => wf_iff_of_field (hf h v).2.2.2 hclean }⟩
  simp only [matches_fixedByte, matches_fullByte, matches_nil]
  constructor
  · rintro ⟨_, rfl, _, rfl, _, rfl, _, rfl, v, _, rfl, rfl⟩
    exact ⟨v, rfl⟩
  · rintro ⟨v, rfl⟩
    exact ⟨_, rfl, _, rfl, _, rfl, _, rfl, _, _, rfl, rfl⟩

/-- Rows with a socket in the low nibble of offset 0 (R148). -/
theorem IsRow.lowAt0 {j : Nat} (hi : Nibble) (hhi : hi ≠ 15) {k : Kind} {f : Header → Nibble → Instr}
    (hrow : refRows[j]? = some ⟨1, [nib hi 0], [0xF0], k, .socket⟩)
    (hf : ∀ h z, (∀ p, instrOfKind k h p = lowAt0 p (f h)) ∧ wireBytes (f h z) = frame h [nib hi z] ∧
      typedMessage (f h z) = some ⟨k, .socket z, h.sender, h.receiver⟩ ∧ (f h z).wf = h.wf) :
    IsRow j f := by
  refine ⟨_, fun z => [nib hi z], .socket, {
    row := hrow
    matches_iff := fun p => ?_
    decodes := fun z => by rw [codecDecode_socket, low_nib]
    encodes := fun z => codecEncode_of_write (checkPasses_of_shape rfl (by simp))
      (by rw [codecWrite_socket, nib_zero_add])
    reads := fun h z => by rw [(hf h z).1, Sys2Proof.lowAt0, low_nib]
    writes := fun h z => (hf h z).2.1
    typed := fun h z => (hf h z).2.2.1
    wf_iff := fun h z => wf_iff_of_clean (hf h z).2.2.2 (Laws.clean_cons (nib_ne_terminator hi z hhi) Laws.clean_nil) }⟩
  simp only [matches_lowNibble hi, matches_nil]
  constructor
  · rintro ⟨z, _, rfl, rfl⟩
    exact ⟨z, rfl⟩
  · rintro ⟨z, rfl⟩
    exact ⟨_, _, rfl, rfl⟩

/-- Rows with a low nibble at offset 3 (R139). -/
theorem IsRow.lowAt3 {j : Nat} (a b c : Byte) (hi : Nibble) (hhi : hi ≠ 15) {k : Kind} {f : Header → Nibble → Instr}
    (hrow : refRows[j]? = some ⟨4, [a, b, c, nib hi 0], [0xFF, 0xFF, 0xFF, 0xF0], k, .pCmd⟩)
    (hf : ∀ h v, (∀ p, instrOfKind k h p = lowAt3 p (f h)) ∧ wireBytes (f h v) = frame h [a, b, c, nib hi v] ∧
      typedMessage (f h v) = some ⟨k, .oneByte (nib 0 v), h.sender, h.receiver⟩ ∧ (f h v).wf = h.wf) :
    IsRow j f := by
  have hclean : terminator ∉ [a, b, c] := clean_of_append (q := [nib hi 0]) (refRows_signature_clean hrow)
  refine ⟨_, fun v => [a, b, c, nib hi v], fun v => .oneByte (nib 0 v), {
    row := hrow
    matches_iff := fun p => ?_
    decodes := fun v => by rw [codecDecode_pCmd, low_nib]
    encodes := fun v => codecEncode_of_write (checkPasses_digit rfl (nib_zero_toNat_le v))
      (by rw [codecWrite_pCmd, low_nib, nib_zero_or])
    reads := fun h v => by rw [(hf h v).1, Sys2Proof.lowAt3, low_nib]
    writes := fun h v => (hf h v).2.1
    typed := fun h v => (hf h v).2.2.1
    wf_iff := fun h v => wf_iff_of_clean (hf h v).2.2.2
      (Laws.clean_append hclean (Laws.clean_cons (nib_ne_terminator hi v hhi) Laws.clean_nil)) }⟩
  simp only [matches_fixedByte, matches_lowNibble hi, matches_nil]
  constructor
  · rintro ⟨_, rfl, _, rfl, _, rfl, v, _, rfl, rfl⟩
    exact ⟨v, rfl⟩
  · rintro ⟨v, rfl⟩
    exact ⟨_, rfl, _, rfl, _, rfl, _, _, rfl, rfl⟩

/-- Rows with two digits at offset 3 (R141). -/
theorem IsRow.pairAt3 {j : Nat} (a b c : Byte) {k : Kind} {f : Header → Byte → Instr}
    (hrow : refRows[j]? = some ⟨5, [a, b, c, 0, 0], [0xFF, 0xFF, 0xFF, 0xF0, 0xF0], k, .pqCmd⟩)
    (hf : ∀ h v, (∀ p, instrOfKind k h p = pairAt3 p (f h)) ∧ wireBytes (f h v) = frame h ([a, b, c] ++ digits2 v) ∧
      typedMessage (f h v) = some ⟨k, .oneByte v, h.sender, h.receiver⟩ ∧ (f h v).wf = h.wf) :
    IsRow j f := by
  have hclean : terminator ∉ [a, b, c] := clean_of_append (q := [0, 0]) (refRows_signature_clean hrow)
  refine ⟨_, fun v => [a, b, c] ++ digits2 v, .oneByte, {
    row := hrow
    matches_iff := fun p => ?_
    decodes := fun v => (codecDecode_pqCmd ..).trans (by rw [low_nib, low_nib, join_digits2])
    encodes := fun v => codecEncode_of_write (checkPasses_of_shape rfl (by simp))
      ((codecWrite_pqCmd ..).trans (by simp [digits2, digit_eq_nib]))
    reads := fun h v => by
      rw [(hf h v).1]
      show some (f h (low _ ++ low _)) = _
      rw [low_nib, low_nib, join_digits2]
    writes := fun h v => (hf h v).2.1
    typed := fun h v => (hf h v).2.2.1
    wf_iff := fun h v => wf_iff_of_clean (hf h v).2.2.2 (Laws.clean_append hclean (terminator_not_mem_digits2 v)) }⟩
  simp only [matches_fixedByte, matches_digit, matches_nil]
  constructor
  · rintro ⟨_, rfl, _, rfl, _, rfl, d, _, rfl, e, _, rfl, rfl⟩
    exact ⟨d ++ e, by rw [digits2_append]; rfl⟩
  · rintro ⟨v, rfl⟩
    exact ⟨_, rfl, _, rfl, _, rfl, _, _, rfl, _, _, rfl, rfl⟩

/-- Rows with four digits at offset 3 (R143). -/
theorem IsRow.quadAt3 {j : Nat} (a b c : Byte) {k : Kind} {f : Header → Half → Instr}
    (hrow : refRows[j]? =
      some ⟨7, [a, b, c, 0, 0, 0, 0], [0xFF, 0xFF, 0xFF, 0xF0, 0xF0, 0xF0, 0xF0], k, .pqrsCmd⟩)
    (hf : ∀ h v, (∀ p, instrOfKind k h p = quadAt3 p (f h)) ∧ wireBytes (f h v) = frame h ([a, b, c] ++ digits4 v) ∧
      typedMessage (f h v) = some ⟨k, .twoByte v, h.sender, h.receiver⟩ ∧ (f h v).wf = h.wf) :
    IsRow j f := by
  have hclean : terminator ∉ [a, b, c] := clean_of_append (q := [0, 0, 0, 0]) (refRows_signature_clean hrow)
  refine ⟨_, fun v => [a, b, c] ++ digits4 v, .twoByte, {
    row := hrow
    matches_iff := fun p => ?_
    decodes := fun v => (codecDecode_pqrsCmd ..).trans (by rw [quad_digits4])
    encodes := fun v => codecEncode_of_write (checkPasses_of_shape rfl (by simp))
      ((codecWrite_pqrsCmd ..).trans (by simp [digits4, digit_eq_nib]))
    reads := fun h v => by
      rw [(hf h v).1]
      exact congrArg (fun u => some (f h u)) (quad_digits4 v)
    writes := fun h v => (hf h v).2.1
    typed := fun h v => (hf h v).2.2.1
    wf_iff := fun h v => wf_iff_of_clean (hf h v).2.2.2 (Laws.clean_append hclean (terminator_not_mem_digits4 v)) }⟩
  simp only [matches_fixedByte, matches_digit, matches_nil]
  constructor
  · rintro ⟨_, rfl, _, rfl, _, rfl, d, _, rfl, e, _, rfl, f, _, rfl, g, _, rfl, rfl⟩
    exact ⟨d ++ e ++ f ++ g, by rw [digits4_append]; rfl⟩
  · rintro ⟨v, rfl⟩
    exact ⟨_, rfl, _, rfl, _, rfl, _, _, rfl, _, _, rfl, _, _, rfl, _, _, rfl, rfl⟩

/-- Rows with two speeds and two positions at offset 3 (R145). -/
theorem IsRow.positionAt3 {j : Nat} (a b c : Byte) {k : Kind} {f : Header → Byte → Byte → Half → Half → Instr}
    (hrow : refRows[j]? = some ⟨13, [a, b, c, 0, 0, 0, 0, 0, 0, 0, 0, 0, 0],
      [0xFF, 0xFF, 0xFF, 0, 0, 0xF0, 0xF0, 0xF0, 0xF0, 0xF0, 0xF0, 0xF0, 0xF0], k, .ptAbs⟩)
    (hf : ∀ h v w pan tilt, (∀ p, instrOfKind k h p = positionAt3 p (f h)) ∧
      wireBytes (f h v w pan tilt) = frame h ([a, b, c, v, w] ++ digits4 pan ++ digits4 tilt) ∧
      typedMessage (f h v w pan tilt) = some ⟨k, .ptPosition v w pan tilt, h.sender, h.receiver⟩ ∧
      (f h v w pan tilt).wf = (h.wf && fieldWf v && fieldWf w)) :
    IsRow j fun h (x : Byte × Byte × Half × Half) => f h x.1 x.2.1 x.2.2.1 x.2.2.2 := by
  have hclean : terminator ∉ [a, b, c] := clean_of_append (q := List.replicate 10 0) (refRows_signature_clean hrow)
  refine ⟨_, fun x => [a, b, c, x.1, x.2.1] ++ digits4 x.2.2.1 ++ digits4 x.2.2.2,
    fun x => .ptPosition x.1 x.2.1 x.2.2.1 x.2.2.2, {
    row := hrow
    matches_iff := fun p => ?_
    decodes := fun x => (codecDecode_ptAbs ..).trans (by rw [quad_digits4, quad_digits4])
    encodes := fun x => codecEncode_of_write (checkPasses_of_shape rfl (by simp))
      ((codecWrite_ptAbs ..).trans (by simp [digits4, digit_eq_nib]))
    reads := fun h x => by
      rw [(hf h x.1 x.2.1 x.2.2.1 x.2.2.2).1]
      show some (f h x.1 x.2.1 (quad _ _ _ _) (quad _ _ _ _)) = _
      rw [quad_digits4, quad_digits4]
    writes := fun h x => (hf h _ _ _ _).2.1
    typed := fun h x => (hf h _ _ _ _).2.2.1
    wf_iff := fun h x => ?_ }⟩
  · simp only [matches_fixedByte, matches_fullByte, matches_digit, matches_nil]
    constructor
    · rintro ⟨_, rfl, _, rfl, _, rfl, v, _, rfl, w, _, rfl, d₁, _, rfl, d₂, _, rfl, d₃, _, rfl, d₄, _, rfl,
        e₁, _, rfl, e₂, _, rfl, e₃, _, rfl, e₄, _, rfl, rfl⟩
      exact ⟨⟨v, w, d₁ ++ d₂ ++ d₃ ++ d₄, e₁ ++ e₂ ++ e₃ ++ e₄⟩, by rw [digits4_append, digits4_append]; rfl⟩
    · rintro ⟨x, rfl⟩
      exact ⟨_, rfl, _, rfl, _, rfl, _, _, rfl, _, _, rfl, _, _, rfl, _, _, rfl, _, _, rfl, _, _, rfl, _, _, rfl,
        _, _, rfl, _, _, rfl, _, _, rfl, rfl⟩
  · rw [(hf h x.1 x.2.1 x.2.2.1 x.2.2.2).2.2.2]
    simp only [List.mem_cons, List.mem_append, terminator_not_mem_digits4, List.not_mem_nil, or_false,
      not_or, Bool.and_eq_true, fieldWf_iff, ne_comm (b := terminator)] at hclean ⊢
    simp [hclean, and_assoc]

end Sys2Proof.Machine

/-! Every row of REF_REGISTRY is a constructor of the instructions, and every message is one of them. The laws of the
layouts give each row its law; two lists, one in the order of the rows and one by the constructors, collect them. -/

namespace Sys2Proof.Machine

/-! ## The rows whose layout occurs once -/

theorem isRow_respByte : IsRow 0 Instr.respByte := by
  refine ⟨⟨2, [0x50, 0x00], [0xFF, 0x00], .respByte, .byteRsp⟩, fun v => [0x50, v], .oneByte, {
    row := rfl
    matches_iff := fun p => ?_
    decodes := fun v => rfl
    encodes := fun v => codecEncode_of_write (checkPasses_of_shape rfl (by simp)) (codecWrite_byteRsp ..)
    reads := fun h v => rfl
    writes := fun h v => rfl
    typed := fun h v => rfl
    wf_iff := fun h v => wf_iff_of_field (p := [0x50]) rfl (by decide) }⟩
  simp only [matches_fixedByte, matches_fullByte, matches_nil]
  exact ⟨fun ⟨_, hp, v, _, hq, hr⟩ => ⟨v, by rw [hp, hq, hr]⟩, fun ⟨v, hp⟩ => ⟨_, hp, v, _, rfl, rfl⟩⟩

/-- R174: the row of RESP_P, which RESP_BYTE's row takes first (R90). -/
theorem isRow_respP : IsRow 1 Instr.respP := by
  refine ⟨⟨2, [0x50, 0x00], [0xFF, 0xF0], .respP, .pRsp⟩, fun v => [0x50, nib 0 v], fun v => .oneByte (nib 0 v), {
    row := rfl
    matches_iff := fun p => ?_
    decodes := fun v => by rw [codecDecode_pRsp, low_nib]
    encodes := fun v => codecEncode_of_write (checkPasses_digit rfl (nib_zero_toNat_le v))
      (by rw [codecWrite_pRsp, low_nib]; simp)
    reads := fun h v => congrArg (fun u => some (Instr.respP h u)) (low_nib 0 v)
    writes := fun h v => rfl
    typed := fun h v => rfl
    wf_iff := fun h v => wf_iff_of_clean rfl
      (Laws.clean_cons (by decide) (Laws.clean_cons (Laws.clean_nib (by decide)) Laws.clean_nil)) }⟩
  simp only [matches_fixedByte, matches_digit, matches_nil]
  exact ⟨fun ⟨_, hp, v, _, hq, hr⟩ => ⟨v, by rw [hp, hq, hr]⟩, fun ⟨v, hp⟩ => ⟨_, hp, v, _, rfl, rfl⟩⟩

theorem isRow_respPQ : IsRow 2 Instr.respPQ := by
  refine ⟨⟨3, [0x50, 0x00, 0x00], [0xFF, 0xF0, 0xF0], .respPQ, .pqRsp⟩, fun v => [0x50] ++ digits2 v, .oneByte, {
    row := rfl
    matches_iff := fun p => ?_
    decodes := fun v => (codecDecode_pqRsp ..).trans (by rw [low_nib, low_nib, join_digits2])
    encodes := fun v => codecEncode_of_write (checkPasses_of_shape rfl (by simp))
      ((codecWrite_pqRsp ..).trans (by simp [digits2, digit_eq_nib]))
    reads := fun h v => by
      show some (Instr.respPQ h (low _ ++ low _)) = _
      rw [low_nib, low_nib, join_digits2]
    writes := fun h v => rfl
    typed := fun h v => rfl
    wf_iff := fun h v => wf_iff_of_clean rfl
      (Laws.clean_cons (by decide) (terminator_not_mem_digits2 v)) }⟩
  simp only [matches_fixedByte, matches_digit, matches_nil]
  constructor
  · rintro ⟨_, rfl, d, _, rfl, e, _, rfl, rfl⟩
    exact ⟨d ++ e, by rw [digits2_append]; rfl⟩
  · rintro ⟨v, rfl⟩
    exact ⟨_, rfl, _, _, rfl, _, _, rfl, rfl⟩

theorem isRow_respPQRS : IsRow 3 Instr.respPQRS := by
  refine ⟨⟨5, [0x50, 0x00, 0x00, 0x00, 0x00], [0xFF, 0xF0, 0xF0, 0xF0, 0xF0], .respPQRS, .pqrsRsp⟩,
    fun v => [0x50] ++ digits4 v, .twoByte, {
    row := rfl
    matches_iff := fun p => ?_
    decodes := fun v => (codecDecode_pqrsRsp ..).trans (by rw [quad_digits4])
    encodes := fun v => codecEncode_of_write (checkPasses_of_shape rfl (by simp))
      ((codecWrite_pqrsRsp ..).trans (by simp [digits4, digit_eq_nib]))
    reads := fun h v => by
      show some (Instr.respPQRS h (quad _ _ _ _)) = _
      rw [quad_digits4]
    writes := fun h v => rfl
    typed := fun h v => rfl
    wf_iff := fun h v => wf_iff_of_clean rfl (Laws.clean_cons (by decide) (terminator_not_mem_digits4 v)) }⟩
  simp only [matches_fixedByte, matches_digit, matches_nil]
  constructor
  · rintro ⟨_, rfl, d, _, rfl, e, _, rfl, f, _, rfl, g, _, rfl, rfl⟩
    exact ⟨d ++ e ++ f ++ g, by rw [digits4_append]; rfl⟩
  · rintro ⟨v, rfl⟩
    exact ⟨_, rfl, _, _, rfl, _, _, rfl, _, _, rfl, _, _, rfl, rfl⟩

theorem isRow_ptPosResp : IsRow 4 fun h (x : Half × Half) => Instr.ptPosResp h x.1 x.2 := by
  refine ⟨⟨9, [0x50, 0x00, 0x00, 0x00, 0x00, 0x00, 0x00, 0x00, 0x00],
      [0xFF, 0xF0, 0xF0, 0xF0, 0xF0, 0xF0, 0xF0, 0xF0, 0xF0], .ptPosResp, .ptResp⟩,
    fun x => [0x50] ++ digits4 x.1 ++ digits4 x.2, fun x => .ptPosition 0 0 x.1 x.2, {
    row := rfl
    matches_iff := fun p => ?_
    decodes := fun x => (codecDecode_ptResp ..).trans (by rw [quad_digits4, quad_digits4])
    encodes := fun x => codecEncode_of_write (checkPasses_of_shape rfl (by simp))
      ((codecWrite_ptResp ..).trans (by simp [digits4, digit_eq_nib]))
    reads := fun h x => by
      show some (Instr.ptPosResp h (quad _ _ _ _) (quad _ _ _ _)) = _
      rw [quad_digits4, quad_digits4]
    writes := fun h x => rfl
    typed := fun h x => rfl
    wf_iff := fun h x => wf_iff_of_clean rfl (Laws.clean_append
      (Laws.clean_cons (by decide) (terminator_not_mem_digits4 x.1)) (terminator_not_mem_digits4 x.2)) }⟩
  simp only [matches_fixedByte, matches_digit, matches_nil]
  constructor
  · rintro ⟨_, rfl, d₁, _, rfl, d₂, _, rfl, d₃, _, rfl, d₄, _, rfl, e₁, _, rfl, e₂, _, rfl, e₃, _, rfl, e₄, _, rfl, rfl⟩
    exact ⟨⟨d₁ ++ d₂ ++ d₃ ++ d₄, e₁ ++ e₂ ++ e₃ ++ e₄⟩, by rw [digits4_append, digits4_append]; rfl⟩
  · rintro ⟨x, rfl⟩
    exact ⟨_, rfl, _, _, rfl, _, _, rfl, _, _, rfl, _, _, rfl, _, _, rfl, _, _, rfl, _, _, rfl, _, _, rfl, rfl⟩

theorem isRow_error : IsRow 7 fun h (x : Nibble × Byte) => Instr.error h x.1 x.2 := by
  refine ⟨⟨2, [nib 6 0, 0x00], [0xF0, 0x00], .error, .error⟩, fun x => [nib 6 x.1, x.2],
    fun x => .errorReply x.1 x.2, {
    row := rfl
    matches_iff := fun p => ?_
    decodes := fun x => by rw [codecDecode_error, low_nib]
    encodes := fun x => codecEncode_of_write (checkPasses_of_shape rfl (by simp))
      (by rw [codecWrite_error, nib_zero_add]; simp)
    reads := fun h x => congrArg (fun u => some (Instr.error h u x.2)) (low_nib 6 x.1)
    writes := fun h x => rfl
    typed := fun h x => rfl
    wf_iff := fun h x => wf_iff_of_field (p := [nib 6 x.1]) rfl
      (Laws.clean_cons (Laws.clean_nib (by decide)) Laws.clean_nil) }⟩
  simp only [matches_lowNibble 6, matches_fullByte, matches_nil]
  constructor
  · rintro ⟨z, _, rfl, v, _, rfl, rfl⟩
    exact ⟨⟨z, v⟩, rfl⟩
  · rintro ⟨x, rfl⟩
    exact ⟨_, _, rfl, _, _, rfl, rfl⟩

/-- R182: the row of CAMNUM_REPLY; index 1 is CAMNUM_QUERY's row (R90). -/
theorem isRow_camnumReply : IsRow 9 Instr.camnumReply := by
  refine ⟨⟨2, [0x30, 0x00], [0xFF, 0xF0], .camnumReply, .camnum⟩, fun v => [0x30, nib 0 v], .cameraNumber, {
    row := rfl
    matches_iff := fun p => ?_
    decodes := fun v => by rw [codecDecode_camnum, low_nib]
    encodes := fun v => codecEncode_of_write (checkPasses_of_shape rfl (by simp))
      (by rw [codecWrite_camnum]; simp)
    reads := fun h v => congrArg (fun u => some (Instr.camnumReply h u)) (low_nib 0 v)
    writes := fun h v => rfl
    typed := fun h v => rfl
    wf_iff := fun h v => wf_iff_of_clean rfl
      (Laws.clean_cons (by decide) (Laws.clean_cons (Laws.clean_nib (by decide)) Laws.clean_nil)) }⟩
  simp only [matches_fixedByte, matches_digit, matches_nil]
  exact ⟨fun ⟨_, hp, v, _, hq, hr⟩ => ⟨v, by rw [hp, hq, hr]⟩, fun ⟨v, hp⟩ => ⟨_, hp, v, _, rfl, rfl⟩⟩

theorem isRow_ptDrive :
    IsRow 21 fun h (x : Byte × Byte × Byte × Byte) => Instr.ptDrive h x.1 x.2.1 x.2.2.1 x.2.2.2 := by
  refine ⟨⟨7, [0x01, 0x06, 0x01, 0x00, 0x00, 0x00, 0x00], [0xFF, 0xFF, 0xFF, 0x00, 0x00, 0x00, 0x00], .ptDrive,
      .ptDrive⟩, fun x => [0x01, 0x06, 0x01, x.1, x.2.1, x.2.2.1, x.2.2.2],
    fun x => .ptDrive x.1 x.2.1 x.2.2.1 x.2.2.2, {
    row := rfl
    matches_iff := fun p => ?_
    decodes := fun x => rfl
    encodes := fun x => codecEncode_of_write (checkPasses_of_shape rfl (by simp)) (codecWrite_ptDrive ..)
    reads := fun h x => rfl
    writes := fun h x => rfl
    typed := fun h x => rfl
    wf_iff := fun h x => ?_ }⟩
  · simp only [matches_fixedByte, matches_fullByte, matches_nil]
    constructor
    · rintro ⟨_, rfl, _, rfl, _, rfl, v, _, rfl, w, _, rfl, x, _, rfl, y, _, rfl, rfl⟩
      exact ⟨⟨v, w, x, y⟩, rfl⟩
    · rintro ⟨x, rfl⟩
      exact ⟨_, rfl, _, rfl, _, rfl, _, _, rfl, _, _, rfl, _, _, rfl, _, _, rfl, rfl⟩
  · simp only [Instr.wf, Bool.and_eq_true, fieldWf_iff, List.mem_cons, List.not_mem_nil, or_false, not_or,
      ne_comm (b := terminator), and_assoc]
    simp [terminator]

/-! ## The rows of the common layouts, in registry order -/

theorem isRow_ack : IsRow 5 Instr.ack := .lowAt0 4 (by decide) rfl fun _ _ => ⟨fun _ => rfl, rfl, rfl, rfl⟩
theorem isRow_completion : IsRow 6 Instr.completion :=
  .lowAt0 5 (by decide) rfl fun _ _ => ⟨fun _ => rfl, rfl, rfl, rfl⟩
theorem isRow_camnumQuery : IsRow 8 fun h (_ : Unit) => Instr.camnumQuery h :=
  .fixed [0x30, 0x01] rfl fun _ => ⟨rfl, rfl, rfl, rfl⟩
theorem isRow_ptPosInq : IsRow 10 fun h (_ : Unit) => Instr.ptPosInq h :=
  .fixed [0x09, 0x06, 0x12] rfl fun _ => ⟨rfl, rfl, rfl, rfl⟩
theorem isRow_zoomStop : IsRow 11 fun h (_ : Unit) => Instr.zoomStop h :=
  .fixed [0x01, 0x04, 0x07, 0x00] rfl fun _ => ⟨rfl, rfl, rfl, rfl⟩
theorem isRow_zoomTele : IsRow 12 fun h (_ : Unit) => Instr.zoomTele h :=
  .fixed [0x01, 0x04, 0x07, 0x02] rfl fun _ => ⟨rfl, rfl, rfl, rfl⟩
theorem isRow_zoomWide : IsRow 13 fun h (_ : Unit) => Instr.zoomWide h :=
  .fixed [0x01, 0x04, 0x07, 0x03] rfl fun _ => ⟨rfl, rfl, rfl, rfl⟩
theorem isRow_zoomTeleVar : IsRow 14 Instr.zoomTeleVar :=
  .lowAt3 0x01 0x04 0x07 2 (by decide) rfl fun _ _ => ⟨fun _ => rfl, rfl, rfl, rfl⟩
theorem isRow_zoomWideVar : IsRow 15 Instr.zoomWideVar :=
  .lowAt3 0x01 0x04 0x07 3 (by decide) rfl fun _ _ => ⟨fun _ => rfl, rfl, rfl, rfl⟩
theorem isRow_focusStop : IsRow 16 fun h (_ : Unit) => Instr.focusStop h :=
  .fixed [0x01, 0x04, 0x08, 0x00] rfl fun _ => ⟨rfl, rfl, rfl, rfl⟩
theorem isRow_focusFar : IsRow 17 fun h (_ : Unit) => Instr.focusFar h :=
  .fixed [0x01, 0x04, 0x08, 0x02] rfl fun _ => ⟨rfl, rfl, rfl, rfl⟩
theorem isRow_focusNear : IsRow 18 fun h (_ : Unit) => Instr.focusNear h :=
  .fixed [0x01, 0x04, 0x08, 0x03] rfl fun _ => ⟨rfl, rfl, rfl, rfl⟩
theorem isRow_focusFarVar : IsRow 19 Instr.focusFarVar :=
  .lowAt3 0x01 0x04 0x08 2 (by decide) rfl fun _ _ => ⟨fun _ => rfl, rfl, rfl, rfl⟩
theorem isRow_focusNearVar : IsRow 20 Instr.focusNearVar :=
  .lowAt3 0x01 0x04 0x08 3 (by decide) rfl fun _ _ => ⟨fun _ => rfl, rfl, rfl, rfl⟩
theorem isRow_memoryRecall : IsRow 22 Instr.memoryRecall :=
  .byteAt4 0x01 0x04 0x3F 0x02 rfl fun _ _ => ⟨rfl, rfl, rfl, rfl⟩
theorem isRow_memorySet : IsRow 23 Instr.memorySet := .byteAt4 0x01 0x04 0x3F 0x01 rfl fun _ _ => ⟨rfl, rfl, rfl, rfl⟩
theorem isRow_clear : IsRow 24 fun h (_ : Unit) => Instr.clear h :=
  .fixed [0x01, 0x00, 0x01] rfl fun _ => ⟨rfl, rfl, rfl, rfl⟩
theorem isRow_motionSync : IsRow 25 Instr.motionSync := .byteAt3 0x0A 0x11 0x13 rfl fun _ _ => ⟨rfl, rfl, rfl, rfl⟩
theorem isRow_presetSpeed : IsRow 26 Instr.presetSpeed := .byteAt3 0x01 0x06 0x01 rfl fun _ _ => ⟨rfl, rfl, rfl, rfl⟩
theorem isRow_ptAbs : IsRow 27 fun h (x : Byte × Byte × Half × Half) => Instr.ptAbs h x.1 x.2.1 x.2.2.1 x.2.2.2 :=
  .positionAt3 0x01 0x06 0x02 rfl fun _ _ _ _ _ => ⟨fun _ => rfl, rfl, rfl, rfl⟩
theorem isRow_ptRel : IsRow 28 fun h (x : Byte × Byte × Half × Half) => Instr.ptRel h x.1 x.2.1 x.2.2.1 x.2.2.2 :=
  .positionAt3 0x01 0x06 0x03 rfl fun _ _ _ _ _ => ⟨fun _ => rfl, rfl, rfl, rfl⟩
theorem isRow_ptHome : IsRow 29 fun h (_ : Unit) => Instr.ptHome h :=
  .fixed [0x01, 0x06, 0x04] rfl fun _ => ⟨rfl, rfl, rfl, rfl⟩
theorem isRow_ptReset : IsRow 30 fun h (_ : Unit) => Instr.ptReset h :=
  .fixed [0x01, 0x06, 0x05] rfl fun _ => ⟨rfl, rfl, rfl, rfl⟩
theorem isRow_cancel : IsRow 31 Instr.cancel := .lowAt0 2 (by decide) rfl fun _ _ => ⟨fun _ => rfl, rfl, rfl, rfl⟩
theorem isRow_menuEnter : IsRow 32 fun h (_ : Unit) => Instr.menuEnter h :=
  .fixed [0x01, 0x06, 0x06, 0x05] rfl fun _ => ⟨rfl, rfl, rfl, rfl⟩
theorem isRow_menuEnterVariant : IsRow 33 fun h (_ : Unit) => Instr.menuEnterVariant h :=
  .fixed [0x01, 0x7E, 0x01, 0x02, 0x00, 0x01] rfl fun _ => ⟨rfl, rfl, rfl, rfl⟩
theorem isRow_menuReturn : IsRow 34 fun h (_ : Unit) => Instr.menuReturn h :=
  .fixed [0x01, 0x06, 0x06, 0x04] rfl fun _ => ⟨rfl, rfl, rfl, rfl⟩
theorem isRow_menuMode : IsRow 35 Instr.menuMode := .byteAt3 0x01 0x06 0x06 rfl fun _ _ => ⟨rfl, rfl, rfl, rfl⟩
theorem isRow_menuModeInq : IsRow 36 fun h (_ : Unit) => Instr.menuModeInq h :=
  .fixed [0x09, 0x06, 0x06] rfl fun _ => ⟨rfl, rfl, rfl, rfl⟩
theorem isRow_brightPosDirect : IsRow 37 Instr.brightPosDirect :=
  .quadAt3 0x01 0x04 0x4D rfl fun _ _ => ⟨fun _ => rfl, rfl, rfl, rfl⟩
theorem isRow_brightPosInq : IsRow 38 fun h (_ : Unit) => Instr.brightPosInq h :=
  .fixed [0x09, 0x04, 0x4D] rfl fun _ => ⟨rfl, rfl, rfl, rfl⟩
theorem isRow_colorTempDirect : IsRow 39 Instr.colorTempDirect :=
  .pairAt3 0x01 0x04 0x20 rfl fun _ _ => ⟨fun _ => rfl, rfl, rfl, rfl⟩
theorem isRow_colorTempInq : IsRow 40 fun h (_ : Unit) => Instr.colorTempInq h :=
  .fixed [0x09, 0x04, 0x20] rfl fun _ => ⟨rfl, rfl, rfl, rfl⟩
theorem isRow_flicker : IsRow 41 Instr.flicker :=
  .lowAt3 0x01 0x04 0x23 0 (by decide) rfl fun _ _ => ⟨fun _ => rfl, rfl, rfl, rfl⟩
theorem isRow_flickerInq : IsRow 42 fun h (_ : Unit) => Instr.flickerInq h :=
  .fixed [0x09, 0x04, 0x23] rfl fun _ => ⟨rfl, rfl, rfl, rfl⟩
theorem isRow_gainLimit : IsRow 43 Instr.gainLimit :=
  .lowAt3 0x01 0x04 0x2C 0 (by decide) rfl fun _ _ => ⟨fun _ => rfl, rfl, rfl, rfl⟩
theorem isRow_gainLimitInq : IsRow 44 fun h (_ : Unit) => Instr.gainLimitInq h :=
  .fixed [0x09, 0x04, 0x2C] rfl fun _ => ⟨rfl, rfl, rfl, rfl⟩
theorem isRow_wbMode : IsRow 45 Instr.wbMode :=
  .lowAt3 0x01 0x04 0x35 0 (by decide) rfl fun _ _ => ⟨fun _ => rfl, rfl, rfl, rfl⟩
theorem isRow_wbModeInq : IsRow 46 fun h (_ : Unit) => Instr.wbModeInq h :=
  .fixed [0x09, 0x04, 0x35] rfl fun _ => ⟨rfl, rfl, rfl, rfl⟩
theorem isRow_focusAuto : IsRow 47 fun h (_ : Unit) => Instr.focusAuto h :=
  .fixed [0x01, 0x04, 0x38, 0x02] rfl fun _ => ⟨rfl, rfl, rfl, rfl⟩
theorem isRow_focusManual : IsRow 48 fun h (_ : Unit) => Instr.focusManual h :=
  .fixed [0x01, 0x04, 0x38, 0x03] rfl fun _ => ⟨rfl, rfl, rfl, rfl⟩
theorem isRow_focusModeInq : IsRow 49 fun h (_ : Unit) => Instr.focusModeInq h :=
  .fixed [0x09, 0x04, 0x38] rfl fun _ => ⟨rfl, rfl, rfl, rfl⟩
theorem isRow_aeMode : IsRow 50 Instr.aeMode := .byteAt3 0x01 0x04 0x39 rfl fun _ _ => ⟨rfl, rfl, rfl, rfl⟩
theorem isRow_aeModeInq : IsRow 51 fun h (_ : Unit) => Instr.aeModeInq h :=
  .fixed [0x09, 0x04, 0x39] rfl fun _ => ⟨rfl, rfl, rfl, rfl⟩
theorem isRow_apertureDirect : IsRow 52 Instr.apertureDirect :=
  .quadAt3 0x01 0x04 0x42 rfl fun _ _ => ⟨fun _ => rfl, rfl, rfl, rfl⟩
theorem isRow_apertureInq : IsRow 53 fun h (_ : Unit) => Instr.apertureInq h :=
  .fixed [0x09, 0x04, 0x42] rfl fun _ => ⟨rfl, rfl, rfl, rfl⟩
theorem isRow_rgainDirect : IsRow 54 Instr.rgainDirect :=
  .quadAt3 0x01 0x04 0x43 rfl fun _ _ => ⟨fun _ => rfl, rfl, rfl, rfl⟩
theorem isRow_rgainInq : IsRow 55 fun h (_ : Unit) => Instr.rgainInq h :=
  .fixed [0x09, 0x04, 0x43] rfl fun _ => ⟨rfl, rfl, rfl, rfl⟩
theorem isRow_bgainDirect : IsRow 56 Instr.bgainDirect :=
  .quadAt3 0x01 0x04 0x44 rfl fun _ _ => ⟨fun _ => rfl, rfl, rfl, rfl⟩
theorem isRow_bgainInq : IsRow 57 fun h (_ : Unit) => Instr.bgainInq h :=
  .fixed [0x09, 0x04, 0x44] rfl fun _ => ⟨rfl, rfl, rfl, rfl⟩
theorem isRow_zoomDirect : IsRow 58 Instr.zoomDirect :=
  .quadAt3 0x01 0x04 0x47 rfl fun _ _ => ⟨fun _ => rfl, rfl, rfl, rfl⟩
theorem isRow_zoomPosInq : IsRow 59 fun h (_ : Unit) => Instr.zoomPosInq h :=
  .fixed [0x09, 0x04, 0x47] rfl fun _ => ⟨rfl, rfl, rfl, rfl⟩
theorem isRow_focusDirect : IsRow 60 Instr.focusDirect :=
  .quadAt3 0x01 0x04 0x48 rfl fun _ _ => ⟨fun _ => rfl, rfl, rfl, rfl⟩
theorem isRow_focusPosInq : IsRow 61 fun h (_ : Unit) => Instr.focusPosInq h :=
  .fixed [0x09, 0x04, 0x48] rfl fun _ => ⟨rfl, rfl, rfl, rfl⟩
theorem isRow_colorGainDirect : IsRow 62 Instr.colorGainDirect :=
  .quadAt3 0x01 0x04 0x49 rfl fun _ _ => ⟨fun _ => rfl, rfl, rfl, rfl⟩
theorem isRow_colorGainInq : IsRow 63 fun h (_ : Unit) => Instr.colorGainInq h :=
  .fixed [0x09, 0x04, 0x49] rfl fun _ => ⟨rfl, rfl, rfl, rfl⟩
theorem isRow_shutterDirect : IsRow 64 Instr.shutterDirect :=
  .quadAt3 0x01 0x04 0x4A rfl fun _ _ => ⟨fun _ => rfl, rfl, rfl, rfl⟩
theorem isRow_shutterInq : IsRow 65 fun h (_ : Unit) => Instr.shutterInq h :=
  .fixed [0x09, 0x04, 0x4A] rfl fun _ => ⟨rfl, rfl, rfl, rfl⟩
theorem isRow_irisDirect : IsRow 66 Instr.irisDirect :=
  .quadAt3 0x01 0x04 0x4B rfl fun _ _ => ⟨fun _ => rfl, rfl, rfl, rfl⟩
theorem isRow_irisInq : IsRow 67 fun h (_ : Unit) => Instr.irisInq h :=
  .fixed [0x09, 0x04, 0x4B] rfl fun _ => ⟨rfl, rfl, rfl, rfl⟩
theorem isRow_colorHueDirect : IsRow 68 Instr.colorHueDirect :=
  .quadAt3 0x01 0x04 0x4F rfl fun _ _ => ⟨fun _ => rfl, rfl, rfl, rfl⟩
theorem isRow_colorHueInq : IsRow 69 fun h (_ : Unit) => Instr.colorHueInq h :=
  .fixed [0x09, 0x04, 0x4F] rfl fun _ => ⟨rfl, rfl, rfl, rfl⟩
theorem isRow_lrReverse : IsRow 70 Instr.lrReverse := .byteAt3 0x01 0x04 0x61 rfl fun _ _ => ⟨rfl, rfl, rfl, rfl⟩
theorem isRow_lrReverseInq : IsRow 71 fun h (_ : Unit) => Instr.lrReverseInq h :=
  .fixed [0x09, 0x04, 0x61] rfl fun _ => ⟨rfl, rfl, rfl, rfl⟩
theorem isRow_pictureEffect : IsRow 72 Instr.pictureEffect :=
  .byteAt3 0x01 0x04 0x63 rfl fun _ _ => ⟨rfl, rfl, rfl, rfl⟩
theorem isRow_pictureEffectInq : IsRow 73 fun h (_ : Unit) => Instr.pictureEffectInq h :=
  .fixed [0x09, 0x04, 0x63] rfl fun _ => ⟨rfl, rfl, rfl, rfl⟩
theorem isRow_pictureFlip : IsRow 74 Instr.pictureFlip := .byteAt3 0x01 0x04 0x66 rfl fun _ _ => ⟨rfl, rfl, rfl, rfl⟩
theorem isRow_pictureFlipInq : IsRow 75 fun h (_ : Unit) => Instr.pictureFlipInq h :=
  .fixed [0x09, 0x04, 0x66] rfl fun _ => ⟨rfl, rfl, rfl, rfl⟩
theorem isRow_brightnessDirect : IsRow 76 Instr.brightnessDirect :=
  .quadAt3 0x01 0x04 0xA1 rfl fun _ _ => ⟨fun _ => rfl, rfl, rfl, rfl⟩
theorem isRow_brightnessInq : IsRow 77 fun h (_ : Unit) => Instr.brightnessInq h :=
  .fixed [0x09, 0x04, 0xA1] rfl fun _ => ⟨rfl, rfl, rfl, rfl⟩
theorem isRow_contrastDirect : IsRow 78 Instr.contrastDirect :=
  .quadAt3 0x01 0x04 0xA2 rfl fun _ _ => ⟨fun _ => rfl, rfl, rfl, rfl⟩
theorem isRow_contrastInq : IsRow 79 fun h (_ : Unit) => Instr.contrastInq h :=
  .fixed [0x09, 0x04, 0xA2] rfl fun _ => ⟨rfl, rfl, rfl, rfl⟩
theorem isRow_awbSens : IsRow 80 Instr.awbSens :=
  .lowAt3 0x01 0x04 0xA9 0 (by decide) rfl fun _ _ => ⟨fun _ => rfl, rfl, rfl, rfl⟩
theorem isRow_awbSensInq : IsRow 81 fun h (_ : Unit) => Instr.awbSensInq h :=
  .fixed [0x09, 0x04, 0xA9] rfl fun _ => ⟨rfl, rfl, rfl, rfl⟩

/-! ## Messages -/

/-- The instruction `i` is the message of row `j`, the entry `e`, with header `h`, payload `p` and parameters `prm`. -/
structure IsMessage (i : Instr) (j : Nat) (e : Entry) (h : Header) (p : List Byte) (prm : Params) : Prop where
  row : refRows[j]? = some e
  payload_matches : Matches p e
  decodes : codecDecode e.codec p = .ok prm
  encodes : codecEncode e.codec e.signature prm = .ok p
  reads : instrOfKind e.kind h p = some i
  writes : wireBytes i = frame h p
  typed : typedMessage i = some ⟨e.kind, prm, h.sender, h.receiver⟩
  wf_iff : i.wf = true ↔ h.wf = true ∧ terminator ∉ p

theorem IsRow.exists_isMessage {α : Type} {j : Nat} {f : Header → α → Instr} (hf : IsRow j f) (h : Header) (x : α) :
    ∃ j e h' p prm, IsMessage (f h x) j e h' p prm := by
  obtain ⟨e, pay, prm, law⟩ := hf
  exact ⟨j, e, h, pay x, prm x, law.row, (law.matches_iff _).mpr ⟨x, rfl⟩, law.decodes x, law.encodes x,
    law.reads h x, law.writes h x, law.typed h x, law.wf_iff h x⟩

theorem IsRow.isMessage_of_matches {α : Type} {j : Nat} {f : Header → α → Instr} (hf : IsRow j f) {e : Entry}
    (hrow : refRows[j]? = some e) (h : Header) {p : List Byte} (hp : Matches p e) :
    ∃ i prm, IsMessage i j e h p prm := by
  obtain ⟨e', pay, prm, law⟩ := hf
  obtain rfl : e' = e := Option.some.inj (law.row.symm.trans hrow)
  obtain ⟨x, rfl⟩ := (law.matches_iff p).mp hp
  exact ⟨f h x, prm x, hrow, hp, law.decodes x, law.encodes x, law.reads h x, law.writes h x, law.typed h x,
    law.wf_iff h x⟩

/-- Every row of REF_REGISTRY is a constructor. -/
theorem exists_isRow : ∀ j < 82, ∃ (α : Type) (f : Header → α → Instr), IsRow j f
  | 0, _ => ⟨_, _, isRow_respByte⟩
  | 1, _ => ⟨_, _, isRow_respP⟩
  | 2, _ => ⟨_, _, isRow_respPQ⟩
  | 3, _ => ⟨_, _, isRow_respPQRS⟩
  | 4, _ => ⟨_, _, isRow_ptPosResp⟩
  | 5, _ => ⟨_, _, isRow_ack⟩
  | 6, _ => ⟨_, _, isRow_completion⟩
  | 7, _ => ⟨_, _, isRow_error⟩
  | 8, _ => ⟨_, _, isRow_camnumQuery⟩
  | 9, _ => ⟨_, _, isRow_camnumReply⟩
  | 10, _ => ⟨_, _, isRow_ptPosInq⟩
  | 11, _ => ⟨_, _, isRow_zoomStop⟩
  | 12, _ => ⟨_, _, isRow_zoomTele⟩
  | 13, _ => ⟨_, _, isRow_zoomWide⟩
  | 14, _ => ⟨_, _, isRow_zoomTeleVar⟩
  | 15, _ => ⟨_, _, isRow_zoomWideVar⟩
  | 16, _ => ⟨_, _, isRow_focusStop⟩
  | 17, _ => ⟨_, _, isRow_focusFar⟩
  | 18, _ => ⟨_, _, isRow_focusNear⟩
  | 19, _ => ⟨_, _, isRow_focusFarVar⟩
  | 20, _ => ⟨_, _, isRow_focusNearVar⟩
  | 21, _ => ⟨_, _, isRow_ptDrive⟩
  | 22, _ => ⟨_, _, isRow_memoryRecall⟩
  | 23, _ => ⟨_, _, isRow_memorySet⟩
  | 24, _ => ⟨_, _, isRow_clear⟩
  | 25, _ => ⟨_, _, isRow_motionSync⟩
  | 26, _ => ⟨_, _, isRow_presetSpeed⟩
  | 27, _ => ⟨_, _, isRow_ptAbs⟩
  | 28, _ => ⟨_, _, isRow_ptRel⟩
  | 29, _ => ⟨_, _, isRow_ptHome⟩
  | 30, _ => ⟨_, _, isRow_ptReset⟩
  | 31, _ => ⟨_, _, isRow_cancel⟩
  | 32, _ => ⟨_, _, isRow_menuEnter⟩
  | 33, _ => ⟨_, _, isRow_menuEnterVariant⟩
  | 34, _ => ⟨_, _, isRow_menuReturn⟩
  | 35, _ => ⟨_, _, isRow_menuMode⟩
  | 36, _ => ⟨_, _, isRow_menuModeInq⟩
  | 37, _ => ⟨_, _, isRow_brightPosDirect⟩
  | 38, _ => ⟨_, _, isRow_brightPosInq⟩
  | 39, _ => ⟨_, _, isRow_colorTempDirect⟩
  | 40, _ => ⟨_, _, isRow_colorTempInq⟩
  | 41, _ => ⟨_, _, isRow_flicker⟩
  | 42, _ => ⟨_, _, isRow_flickerInq⟩
  | 43, _ => ⟨_, _, isRow_gainLimit⟩
  | 44, _ => ⟨_, _, isRow_gainLimitInq⟩
  | 45, _ => ⟨_, _, isRow_wbMode⟩
  | 46, _ => ⟨_, _, isRow_wbModeInq⟩
  | 47, _ => ⟨_, _, isRow_focusAuto⟩
  | 48, _ => ⟨_, _, isRow_focusManual⟩
  | 49, _ => ⟨_, _, isRow_focusModeInq⟩
  | 50, _ => ⟨_, _, isRow_aeMode⟩
  | 51, _ => ⟨_, _, isRow_aeModeInq⟩
  | 52, _ => ⟨_, _, isRow_apertureDirect⟩
  | 53, _ => ⟨_, _, isRow_apertureInq⟩
  | 54, _ => ⟨_, _, isRow_rgainDirect⟩
  | 55, _ => ⟨_, _, isRow_rgainInq⟩
  | 56, _ => ⟨_, _, isRow_bgainDirect⟩
  | 57, _ => ⟨_, _, isRow_bgainInq⟩
  | 58, _ => ⟨_, _, isRow_zoomDirect⟩
  | 59, _ => ⟨_, _, isRow_zoomPosInq⟩
  | 60, _ => ⟨_, _, isRow_focusDirect⟩
  | 61, _ => ⟨_, _, isRow_focusPosInq⟩
  | 62, _ => ⟨_, _, isRow_colorGainDirect⟩
  | 63, _ => ⟨_, _, isRow_colorGainInq⟩
  | 64, _ => ⟨_, _, isRow_shutterDirect⟩
  | 65, _ => ⟨_, _, isRow_shutterInq⟩
  | 66, _ => ⟨_, _, isRow_irisDirect⟩
  | 67, _ => ⟨_, _, isRow_irisInq⟩
  | 68, _ => ⟨_, _, isRow_colorHueDirect⟩
  | 69, _ => ⟨_, _, isRow_colorHueInq⟩
  | 70, _ => ⟨_, _, isRow_lrReverse⟩
  | 71, _ => ⟨_, _, isRow_lrReverseInq⟩
  | 72, _ => ⟨_, _, isRow_pictureEffect⟩
  | 73, _ => ⟨_, _, isRow_pictureEffectInq⟩
  | 74, _ => ⟨_, _, isRow_pictureFlip⟩
  | 75, _ => ⟨_, _, isRow_pictureFlipInq⟩
  | 76, _ => ⟨_, _, isRow_brightnessDirect⟩
  | 77, _ => ⟨_, _, isRow_brightnessInq⟩
  | 78, _ => ⟨_, _, isRow_contrastDirect⟩
  | 79, _ => ⟨_, _, isRow_contrastInq⟩
  | 80, _ => ⟨_, _, isRow_awbSens⟩
  | 81, _ => ⟨_, _, isRow_awbSensInq⟩
  | j + 82, h => absurd h (by omega)

/-- Every message belongs to a row. -/
theorem exists_isMessage : ∀ i : Instr, wireBytes i ≠ [] → ∃ j e h p prm, IsMessage i j e h p prm
  | .respByte h value, _ => isRow_respByte.exists_isMessage h value
  | .respP h value, _ => isRow_respP.exists_isMessage h value
  | .respPQ h value, _ => isRow_respPQ.exists_isMessage h value
  | .respPQRS h value, _ => isRow_respPQRS.exists_isMessage h value
  | .ptPosResp h panPos tiltPos, _ => isRow_ptPosResp.exists_isMessage h ⟨panPos, tiltPos⟩
  | .ack h socket, _ => isRow_ack.exists_isMessage h socket
  | .completion h socket, _ => isRow_completion.exists_isMessage h socket
  | .error h socket code, _ => isRow_error.exists_isMessage h ⟨socket, code⟩
  | .camnumQuery h, _ => isRow_camnumQuery.exists_isMessage h ()
  | .camnumReply h index, _ => isRow_camnumReply.exists_isMessage h index
  | .ptPosInq h, _ => isRow_ptPosInq.exists_isMessage h ()
  | .zoomStop h, _ => isRow_zoomStop.exists_isMessage h ()
  | .zoomTele h, _ => isRow_zoomTele.exists_isMessage h ()
  | .zoomWide h, _ => isRow_zoomWide.exists_isMessage h ()
  | .zoomTeleVar h value, _ => isRow_zoomTeleVar.exists_isMessage h value
  | .zoomWideVar h value, _ => isRow_zoomWideVar.exists_isMessage h value
  | .focusStop h, _ => isRow_focusStop.exists_isMessage h ()
  | .focusFar h, _ => isRow_focusFar.exists_isMessage h ()
  | .focusNear h, _ => isRow_focusNear.exists_isMessage h ()
  | .focusFarVar h value, _ => isRow_focusFarVar.exists_isMessage h value
  | .focusNearVar h value, _ => isRow_focusNearVar.exists_isMessage h value
  | .ptDrive h panSpeed tiltSpeed panDir tiltDir, _ =>
    isRow_ptDrive.exists_isMessage h ⟨panSpeed, tiltSpeed, panDir, tiltDir⟩
  | .memoryRecall h index, _ => isRow_memoryRecall.exists_isMessage h index
  | .memorySet h index, _ => isRow_memorySet.exists_isMessage h index
  | .clear h, _ => isRow_clear.exists_isMessage h ()
  | .motionSync h value, _ => isRow_motionSync.exists_isMessage h value
  | .presetSpeed h value, _ => isRow_presetSpeed.exists_isMessage h value
  | .ptAbs h panSpeed tiltSpeed panPos tiltPos, _ =>
    isRow_ptAbs.exists_isMessage h ⟨panSpeed, tiltSpeed, panPos, tiltPos⟩
  | .ptRel h panSpeed tiltSpeed panPos tiltPos, _ =>
    isRow_ptRel.exists_isMessage h ⟨panSpeed, tiltSpeed, panPos, tiltPos⟩
  | .ptHome h, _ => isRow_ptHome.exists_isMessage h ()
  | .ptReset h, _ => isRow_ptReset.exists_isMessage h ()
  | .cancel h socket, _ => isRow_cancel.exists_isMessage h socket
  | .menuEnter h, _ => isRow_menuEnter.exists_isMessage h ()
  | .menuEnterVariant h, _ => isRow_menuEnterVariant.exists_isMessage h ()
  | .menuReturn h, _ => isRow_menuReturn.exists_isMessage h ()
  | .menuMode h value, _ => isRow_menuMode.exists_isMessage h value
  | .menuModeInq h, _ => isRow_menuModeInq.exists_isMessage h ()
  | .brightPosDirect h value, _ => isRow_brightPosDirect.exists_isMessage h value
  | .brightPosInq h, _ => isRow_brightPosInq.exists_isMessage h ()
  | .colorTempDirect h value, _ => isRow_colorTempDirect.exists_isMessage h value
  | .colorTempInq h, _ => isRow_colorTempInq.exists_isMessage h ()
  | .flicker h value, _ => isRow_flicker.exists_isMessage h value
  | .flickerInq h, _ => isRow_flickerInq.exists_isMessage h ()
  | .gainLimit h value, _ => isRow_gainLimit.exists_isMessage h value
  | .gainLimitInq h, _ => isRow_gainLimitInq.exists_isMessage h ()
  | .wbMode h value, _ => isRow_wbMode.exists_isMessage h value
  | .wbModeInq h, _ => isRow_wbModeInq.exists_isMessage h ()
  | .focusAuto h, _ => isRow_focusAuto.exists_isMessage h ()
  | .focusManual h, _ => isRow_focusManual.exists_isMessage h ()
  | .focusModeInq h, _ => isRow_focusModeInq.exists_isMessage h ()
  | .aeMode h value, _ => isRow_aeMode.exists_isMessage h value
  | .aeModeInq h, _ => isRow_aeModeInq.exists_isMessage h ()
  | .apertureDirect h value, _ => isRow_apertureDirect.exists_isMessage h value
  | .apertureInq h, _ => isRow_apertureInq.exists_isMessage h ()
  | .rgainDirect h value, _ => isRow_rgainDirect.exists_isMessage h value
  | .rgainInq h, _ => isRow_rgainInq.exists_isMessage h ()
  | .bgainDirect h value, _ => isRow_bgainDirect.exists_isMessage h value
  | .bgainInq h, _ => isRow_bgainInq.exists_isMessage h ()
  | .zoomDirect h value, _ => isRow_zoomDirect.exists_isMessage h value
  | .zoomPosInq h, _ => isRow_zoomPosInq.exists_isMessage h ()
  | .focusDirect h value, _ => isRow_focusDirect.exists_isMessage h value
  | .focusPosInq h, _ => isRow_focusPosInq.exists_isMessage h ()
  | .colorGainDirect h value, _ => isRow_colorGainDirect.exists_isMessage h value
  | .colorGainInq h, _ => isRow_colorGainInq.exists_isMessage h ()
  | .shutterDirect h value, _ => isRow_shutterDirect.exists_isMessage h value
  | .shutterInq h, _ => isRow_shutterInq.exists_isMessage h ()
  | .irisDirect h value, _ => isRow_irisDirect.exists_isMessage h value
  | .irisInq h, _ => isRow_irisInq.exists_isMessage h ()
  | .colorHueDirect h value, _ => isRow_colorHueDirect.exists_isMessage h value
  | .colorHueInq h, _ => isRow_colorHueInq.exists_isMessage h ()
  | .lrReverse h value, _ => isRow_lrReverse.exists_isMessage h value
  | .lrReverseInq h, _ => isRow_lrReverseInq.exists_isMessage h ()
  | .pictureEffect h value, _ => isRow_pictureEffect.exists_isMessage h value
  | .pictureEffectInq h, _ => isRow_pictureEffectInq.exists_isMessage h ()
  | .pictureFlip h value, _ => isRow_pictureFlip.exists_isMessage h value
  | .pictureFlipInq h, _ => isRow_pictureFlipInq.exists_isMessage h ()
  | .brightnessDirect h value, _ => isRow_brightnessDirect.exists_isMessage h value
  | .brightnessInq h, _ => isRow_brightnessInq.exists_isMessage h ()
  | .contrastDirect h value, _ => isRow_contrastDirect.exists_isMessage h value
  | .contrastInq h, _ => isRow_contrastInq.exists_isMessage h ()
  | .awbSens h value, _ => isRow_awbSens.exists_isMessage h value
  | .awbSensInq h, _ => isRow_awbSensInq.exists_isMessage h ()
  | .extract .., hi | .serialize .., hi | .classify .., hi | .template .., hi | .codec .., hi | .decode .., hi
  | .encode .., hi => absurd rfl hi

/-- Every payload that a row of REF_REGISTRY matches is the payload of a message of that row. -/
theorem isMessage_of_matches {j : Nat} {e : Entry} (hrow : refRows[j]? = some e) (h : Header) {p : List Byte}
    (hp : Matches p e) : ∃ i prm, IsMessage i j e h p prm := by
  have hj : j < 82 := (List.getElem?_eq_some_iff.mp hrow).1
  obtain ⟨α, f, hf⟩ := exists_isRow j hj
  exact hf.isMessage_of_matches hrow h hp

end Sys2Proof.Machine

/-! Decoding (30_encoding.md). A payload is read by the first row of REF_REGISTRY that it matches. By the overlaps of
the registry (R90) that is the row of its own message, but for the four shadowed pairs. -/

namespace Sys2Proof.Machine

/-! ## The first row of a payload -/

/-- R124: row `j` of REF_REGISTRY is the first that a payload matches. -/
def FirstRow (p : List Byte) (j : Nat) (e : Entry) : Prop :=
  refRows[j]? = some e ∧ Matches p e ∧ ∀ k < j, ∀ d, refRows[k]? = some d → ¬ Matches p d

theorem refRows_admits_iff {j : Nat} {e : Entry} (h : refRows[j]? = some e) (p : List Byte) :
    e.admits p = true ↔ Matches p e :=
  Entry.admits_iff_matches (refRows_wf e (List.mem_of_getElem? h)) p

/-- R87, R124: what the decoder's search finds. -/
theorem find_refRows_eq_some_iff (p : List Byte) (e : Entry) :
    refRows.find? (·.admits p) = some e ↔ ∃ j, FirstRow p j e := by
  rw [List.find?_eq_some_iff_getElem]
  constructor
  · rintro ⟨hadmits, j, hj, rfl, hearlier⟩
    have hrow : refRows[j]? = some refRows[j] := List.getElem?_eq_getElem hj
    refine ⟨j, hrow, (refRows_admits_iff hrow p).mp hadmits, fun k hk d hd hm => ?_⟩
    obtain ⟨hk', rfl⟩ := List.getElem?_eq_some_iff.mp hd
    have hnot := hearlier k hk
    rw [(refRows_admits_iff hd p).mpr hm] at hnot
    cases hnot
  · rintro ⟨j, hrow, hm, hearlier⟩
    obtain ⟨hj, rfl⟩ := List.getElem?_eq_some_iff.mp hrow
    refine ⟨(refRows_admits_iff hrow p).mpr hm, j, hj, rfl, fun k hk => ?_⟩
    have hd : refRows[k]? = some refRows[k] := List.getElem?_eq_getElem _
    have hnot := hearlier k hk _ hd
    rw [← refRows_admits_iff hd p, Bool.not_eq_true] at hnot
    rw [hnot]
    rfl

theorem decodePayload_of_firstRow {p : List Byte} {j : Nat} {e : Entry} (h : FirstRow p j e) (hd : Header) :
    decodePayload hd p = instrOfKind e.kind hd p := by
  rw [decodePayload, (find_refRows_eq_some_iff p e).mpr ⟨j, h⟩]
  rfl

theorem firstRow_of_decodePayload {hd : Header} {p : List Byte} {i : Instr} (h : decodePayload hd p = some i) :
    ∃ j e, FirstRow p j e ∧ instrOfKind e.kind hd p = some i := by
  obtain ⟨e, hfind, hi⟩ := Option.bind_eq_some_iff.mp h
  obtain ⟨j, hfirst⟩ := (find_refRows_eq_some_iff p e).mp hfind
  exact ⟨j, e, hfirst, hi⟩

/-- With REF_REGISTRY configured, the classifier meets the same row. -/
theorem FirstRow.firstMatch {c : Config} (hc : c.rows = refRows) {p : List Byte} {j : Nat} {e : Entry}
    (h : FirstRow p j e) : FirstMatch c p (refRows.take j) e := by
  obtain ⟨hrow, hm, hearlier⟩ := h
  obtain ⟨hj, rfl⟩ := List.getElem?_eq_some_iff.mp hrow
  refine ⟨refRows.drop (j + 1), ?_, fun d hd => ?_, hm⟩
  · rw [hc, ← List.drop_eq_getElem_cons hj, List.take_append_drop]
  · obtain ⟨k, hk, rfl⟩ := List.mem_take_iff_getElem.mp hd
    exact hearlier k (by omega) _ (List.getElem?_eq_getElem _)

/-! ## The frame of a message -/

theorem frame_inj {h h' : Header} {p p' : List Byte} (heq : frame h p = frame h' p') : h = h' ∧ p = p' := by
  obtain ⟨hbyte, hp⟩ := List.cons.inj heq
  refine ⟨?_, List.append_cancel_right hp⟩
  rw [← ofByte_byte h, hbyte, ofByte_byte]

theorem header_wf_iff (h : Header) : h.wf = true ↔ h.byte ≠ terminator :=
  ⟨header_byte_ne_terminator h, fun hb => Bool.not_eq_false _ ▸ fun hw => hb (header_byte_eq_terminator h hw)⟩

/-- R73: a message is well-formed exactly when its frame holds the terminator at its end only. -/
theorem wf_iff_frame {i : Instr} {h : Header} {p : List Byte} (hi : wireBytes i = frame h p) :
    i.wf = true ↔ h.byte ≠ terminator ∧ terminator ∉ p := by
  have hne : wireBytes i ≠ [] := by rw [hi]; exact List.cons_ne_nil _ _
  obtain ⟨j, e, h', p', prm, hmsg⟩ := exists_isMessage i hne
  obtain ⟨rfl, rfl⟩ := frame_inj (hi.symm.trans hmsg.writes)
  rw [hmsg.wf_iff, header_wf_iff]

/-! ## Shadowed payloads (R90, R289) -/

theorem wireBytes_shadowedBy (i : Instr) : wireBytes (shadowedBy i) = wireBytes i := by
  unfold shadowedBy
  split
  · rfl
  · split
    · next h => rw [h]; rfl
    · rfl
  · split
    · next h => rw [h]; rfl
    · split
      · next h => rw [h]; rfl
      · rfl
  · rfl

theorem shadowedBy_camnumReply {index : Nibble} (hi : index ≠ 1) (h : Header) :
    shadowedBy (.camnumReply h index) = .camnumReply h index := if_neg hi

theorem shadowedBy_menuMode {value : Byte} (h4 : value ≠ 4) (h5 : value ≠ 5) (h : Header) :
    shadowedBy (.menuMode h value) = .menuMode h value := (if_neg h5).trans (if_neg h4)

theorem shadowedBy_idem (i : Instr) : shadowedBy (shadowedBy i) = shadowedBy i := by
  cases i
  case camnumReply h index =>
    by_cases hi : index = 1
    · rw [hi]; rfl
    · rw [shadowedBy_camnumReply hi, shadowedBy_camnumReply hi]
  case menuMode h value =>
    by_cases h5 : value = 5
    · rw [h5]; rfl
    · by_cases h4 : value = 4
      · rw [h4]; rfl
      · rw [shadowedBy_menuMode h4 h5, shadowedBy_menuMode h4 h5]
  all_goals rfl

/-- R90: rows of REF_REGISTRY that a common payload matches are among the four overlapping pairs. -/
theorem overlapping_pair {k j : Nat} {d e : Entry} {p : List Byte} (hkj : k < j) (hd : refRows[k]? = some d)
    (he : refRows[j]? = some e) (hpd : Matches p d) (hpe : Matches p e) :
    (k, j) ∈ [(0, 1), (8, 9), (32, 35), (34, 35)] := by
  have hdw := refRows_wf d (List.mem_of_getElem? hd)
  have hew := refRows_wf e (List.mem_of_getElem? he)
  obtain ⟨hj, rfl⟩ := List.getElem?_eq_some_iff.mp he
  obtain ⟨hk, rfl⟩ := List.getElem?_eq_some_iff.mp hd
  refine (referenceRegistryOverlapsInFourPairs.2 k hk j hj).mp ⟨hkj, ?_⟩
  rw [List.getD_eq_getElem _ _ hk, List.getD_eq_getElem _ _ hj]
  exact (Entry.overlaps_iff hdw hew).mpr (fixedBits_agree_of_matches hpd hpe)

theorem lowAt1_eq_some {p : List Byte} {f : Nibble → Instr} {i : Instr} (h : lowAt1 p f = some i) :
    ∃ v, i = f v := by
  unfold lowAt1 at h
  split at h
  · exact ⟨_, (Option.some.inj h).symm⟩
  · cases h

theorem matches_fixed_four {a b c d : Byte} {k : Kind} {cd : CodecId} {p : List Byte}
    (h : Matches p ⟨4, [a, b, c, d], [0xFF, 0xFF, 0xFF, 0xFF], k, cd⟩) : p = [a, b, c, d] := by
  simp only [matches_fixedByte, matches_nil] at h
  obtain ⟨_, rfl, _, rfl, _, rfl, _, rfl, rfl⟩ := h
  rfl

/-- R90: a message whose payload an earlier row matches is shadowed. -/
theorem shadowed_of_earlier_match {i : Instr} {j k : Nat} {d e : Entry} {h : Header} {p : List Byte} {prm : Params}
    (hmsg : IsMessage i j e h p prm) (hkj : k < j) (hd : refRows[k]? = some d) (hm : Matches p d) :
    shadowedBy i ≠ i := by
  have hpair := overlapping_pair hkj hd hmsg.row hm hmsg.payload_matches
  have hread := hmsg.reads
  simp only [List.mem_cons, Prod.mk.injEq, List.not_mem_nil, or_false] at hpair
  obtain ⟨rfl, rfl⟩ | ⟨rfl, rfl⟩ | ⟨rfl, rfl⟩ | ⟨rfl, rfl⟩ := hpair
  case inl =>
    obtain rfl : ⟨2, [0x50, 0x00], [0xFF, 0xF0], .respP, .pRsp⟩ = e := Option.some.inj hmsg.row
    obtain ⟨v, rfl⟩ := lowAt1_eq_some hread
    exact nofun
  case inr.inl =>
    obtain rfl : ⟨2, [0x30, 0x00], [0xFF, 0xF0], .camnumReply, .camnum⟩ = e := Option.some.inj hmsg.row
    obtain rfl : ⟨2, [0x30, 0x01], [0xFF, 0xFF], .camnumQuery, .none⟩ = d := Option.some.inj hd
    simp only [matches_fixedByte, matches_nil] at hm
    obtain ⟨_, rfl, _, rfl, rfl⟩ := hm
    obtain rfl : .camnumReply h 1 = i := Option.some.inj hread
    exact nofun
  all_goals
    obtain rfl : ⟨4, [0x01, 0x06, 0x06, 0x00], [0xFF, 0xFF, 0xFF, 0x00], .menuMode, .byteCmd⟩ = e :=
      Option.some.inj hmsg.row
  case inr.inr.inl =>
    obtain rfl : ⟨4, [0x01, 0x06, 0x06, 0x05], [0xFF, 0xFF, 0xFF, 0xFF], .menuEnter, .none⟩ = d :=
      Option.some.inj hd
    obtain rfl := matches_fixed_four hm
    obtain rfl : .menuMode h 5 = i := Option.some.inj hread
    exact nofun
  case inr.inr.inr =>
    obtain rfl : ⟨4, [0x01, 0x06, 0x06, 0x04], [0xFF, 0xFF, 0xFF, 0xFF], .menuReturn, .none⟩ = d :=
      Option.some.inj hd
    obtain rfl := matches_fixed_four hm
    obtain rfl : .menuMode h 4 = i := Option.some.inj hread
    exact nofun

/-- A message's payload is first matched by the row of the message that shadows it, itself where none does. -/
theorem shadowedBy_firstRow {i : Instr} (hi : wireBytes i ≠ []) :
    ∃ j e h p prm, IsMessage (shadowedBy i) j e h p prm ∧ FirstRow p j e ∧ wireBytes i = frame h p := by
  obtain ⟨j, e, h, p, prm, hmsg⟩ := exists_isMessage (shadowedBy i) (wireBytes_shadowedBy i ▸ hi)
  refine ⟨j, e, h, p, prm, hmsg, ⟨hmsg.row, hmsg.payload_matches, fun k hk d hd hm => ?_⟩,
    (wireBytes_shadowedBy i).symm.trans hmsg.writes⟩
  exact shadowed_of_earlier_match hmsg hk hd hm (shadowedBy_idem i)

/-! ## Decoding a stream -/

theorem decodeWire_frame {hdr : Byte} {p : List Byte} (rest : List Byte) (hh : hdr ≠ terminator)
    (hp : terminator ∉ p) {r : Option Instr} (hr : decodePayload (Header.ofByte hdr) p = r) :
    decodeWire (hdr :: (p ++ terminator :: rest)) =
      r.elim (.error .noRow) .ok := by
  have hfind : findTerminator (hdr :: (p ++ terminator :: rest)) = some (p.length + 1) :=
    findTerminator_clean (hdr :: p) rest (Laws.clean_cons hh hp)
  simp only [decodeWire, hfind, List.take_left, hr]
  cases r <;> rfl

theorem decodeWire_incomplete {buf : List Byte} (h : terminator ∉ buf) : decodeWire buf = .error .incomplete := by
  simp only [decodeWire, (findTerminator_none buf).mpr h]

theorem decodeWire_atZero (rest : List Byte) : decodeWire (terminator :: rest) = .error .terminatorAtZero := by
  have hfind : findTerminator (terminator :: rest) = some 0 := findTerminator_clean [] rest Laws.clean_nil
  simp only [decodeWire, hfind]

theorem frame_append (h : Header) (p rest : List Byte) :
    frame h p ++ rest = h.byte :: (p ++ terminator :: rest) := by
  simp [frame]

/-- R94, R90: a stream that begins with a well-formed message decodes to the message that shadows it. -/
theorem decodeWire_message {i : Instr} (hi : wireBytes i ≠ []) (hw : i.wf = true) (rest : List Byte) :
    decodeWire (wireBytes i ++ rest) = .ok (shadowedBy i) := by
  obtain ⟨j, e, h, p, prm, hmsg, hfirst, hframe⟩ := shadowedBy_firstRow hi
  obtain ⟨hh, hp⟩ := (wf_iff_frame hframe).mp hw
  have hread : decodePayload (Header.ofByte h.byte) p = some (shadowedBy i) := by
    rw [ofByte_byte, decodePayload_of_firstRow hfirst, hmsg.reads]
  rw [hframe, frame_append]
  exact decodeWire_frame rest hh hp hread

/-- R94: what decodes is a message of the row found, and its frame is the one read. -/
theorem decodeWire_ok {buf : List Byte} {i : Instr} (hdec : decodeWire buf = .ok i) :
    ∃ h p rest, wireBytes i = frame h p ∧ h.byte ≠ terminator ∧ terminator ∉ p ∧ buf = wireBytes i ++ rest := by
  obtain h | ⟨rest, rfl⟩ | ⟨hdr, p, rest, rfl, hh, hp⟩ := stream_cases buf
  · rw [decodeWire_incomplete h] at hdec; cases hdec
  · rw [decodeWire_atZero] at hdec; cases hdec
  · rw [decodeWire_frame rest hh hp rfl] at hdec
    cases hread : decodePayload (Header.ofByte hdr) p with
    | none => rw [hread] at hdec; cases hdec
    | some i' =>
      obtain rfl : i' = i := by rw [hread] at hdec; cases hdec; rfl
      obtain ⟨j, e, hfirst, hkind⟩ := firstRow_of_decodePayload hread
      obtain ⟨i'', prm, hmsg⟩ := isMessage_of_matches hfirst.1 (Header.ofByte hdr) hfirst.2.1
      obtain rfl : i'' = i' := Option.some.inj (hmsg.reads.symm.trans hkind)
      refine ⟨_, p, rest, hmsg.writes, by rwa [byte_ofByte], hp, ?_⟩
      rw [hmsg.writes, frame_append, byte_ofByte]

/-- Settles O57. -/
theorem decodedFrameIsTheEncoding : Obligations.DecodedFrameIsTheEncoding := by
  intro buf i hdec
  obtain ⟨h, p, rest, hi, hh, hp, hbuf⟩ := decodeWire_ok hdec
  exact ⟨(wf_iff_frame hi).mpr ⟨hh, hp⟩, rest, hbuf⟩

/-! ## Decoding a request -/

theorem kind_ofId_id (k : Kind) : Kind.ofId k.id = some k := by cases k <;> rfl
theorem codec_ofNumber_number (c : CodecId) : CodecId.ofNumber c.number = some c := by cases c <;> rfl
theorem dir_ofNumber_number (d : Dir) : Dir.ofNumber d.number = some d := by cases d <;> rfl

/-- R271: a value of a field's width is accepted. -/
theorem fieldOf_toNat {w : Nat} (v : BitVec w) : fieldOf w v.toNat = .ok v := by
  rw [fieldOf, if_pos v.isLt, BitVec.ofNat_toNat, BitVec.setWidth_eq]

/-- R104: the parameter fields of a request hold the value they were given. -/
theorem decodeParams_withParams (r : PortRequest) (prm : Params) : decodeParams (r.withParams prm) = .ok prm := by
  cases prm <;> simp [decodeParams, PortRequest.withParams, fieldOf_toNat, bind, Except.bind]

/-- R101: the parameter fields are apart from the others. -/
theorem withParams_fields (r : PortRequest) (prm : Params) :
    let r' := r.withParams prm
    r'.op = r.op ∧ r'.dir = r.dir ∧ r'.codec = r.codec ∧ r'.work = r.work ∧ r'.kind = r.kind ∧
      r'.sender = r.sender ∧ r'.receiver = r.receiver ∧ r'.outCapacity = r.outCapacity ∧ r'.outHeld = r.outHeld := by
  cases prm <;> exact ⟨rfl, rfl, rfl, rfl, rfl, rfl, rfl, rfl, rfl⟩

theorem decodePort_codec {r : PortRequest} {d : Dir} {c : CodecId} (prm : Params) (hop : r.op = 4)
    (hd : Dir.ofNumber r.dir = some d) (hc : CodecId.ofNumber r.codec = some c) :
    decodePort (r.withParams prm) = .ok (.codec d c r.work prm) := by
  obtain ⟨hop', hdir', hcodec', hwork', -⟩ := withParams_fields r prm
  simp [decodePort, hop', hop, decodeDir, hdir', hd, decodeCodec, hcodec', hc, hwork', decodeParams_withParams, bind,
    Except.bind]

theorem decodePort_encode {r : PortRequest} {k : Kind} (prm : Params) (hop : r.op = 6)
    (hk : Kind.ofId r.kind = some k) :
    decodePort (r.withParams prm) = .ok (.encode k prm r.sender r.receiver ⟨r.outCapacity, r.outHeld⟩) := by
  obtain ⟨hop', -, -, -, hkind', hsnd', hrcv', hcap', hheld'⟩ := withParams_fields r prm
  simp [decodePort, hop', hop, decodeKind, hkind', hk, hsnd', hrcv', hcap', hheld', decodeParams_withParams, bind,
    Except.bind]

/-- R101: the record of a request operation decodes to it. -/
theorem decode_encode_request {i : Instr} (hi : wireBytes i = []) : decode (encode i) = some i := by
  cases i, hi using request_cases with
  | extract | serialize | classify | decode => rfl
  | template k =>
    simp [encode, decode, decodePort, decodeKind, kind_ofId_id, bind, Except.bind, Except.toOption]
  | codec dir d work prm =>
    exact congrArg Except.toOption (decodePort_codec prm rfl (dir_ofNumber_number dir) (codec_ofNumber_number d))
  | encode k prm snd rcv out => exact congrArg Except.toOption (decodePort_encode prm rfl (kind_ofId_id k))

/-- A message is encoded as its frame. -/
theorem encode_message {i : Instr} (hi : wireBytes i ≠ []) : encode i = .wire (wireBytes i) := by
  cases i
  case extract | serialize | classify | template | codec | decode | encode => exact absurd rfl hi
  all_goals rfl

theorem shadowedBy_request {i : Instr} (hi : wireBytes i = []) : shadowedBy i = i := by
  cases i, hi using request_cases <;> rfl

/-- Settles O56: a request's record gives it back; a message's frame is read by the first row it matches. -/
theorem decodeUndoesEncode : Obligations.DecodeUndoesEncode := by
  intro i hw
  by_cases hi : wireBytes i = []
  · rw [decode_encode_request hi, shadowedBy_request hi]
  · rw [encode_message hi]
    have hdec := decodeWire_message hi hw []
    rw [List.append_nil] at hdec
    simp only [decode, hdec, Except.toOption]

/-- Settles O58: each frame and the request are the encodings of their instructions. -/
theorem writtenOutFramesDecode : Obligations.WrittenOutFramesDecode := by
  refine ⟨decodeUndoesEncode (.ack ⟨1, 1, 0⟩ 1) rfl, decodeUndoesEncode (.zoomTeleVar ⟨1, 0, 1⟩ 5) rfl,
    decodeUndoesEncode (.ptAbs ⟨1, 0, 1⟩ 0x18 0x14 0x0123 0x4567) rfl,
    decodeUndoesEncode (.zoomPosInq ⟨1, 0, 1⟩) rfl, decodeUndoesEncode (.template .ack) rfl⟩

end Sys2Proof.Machine

/-! Messages under REF_REGISTRY: DECODE reads each of them (43_entry_points.md), and running one delivers it
(44_msg_replies.md, 45_msg_ptz_lens.md, 46_msg_image.md); a full-byte field that holds the terminator ends the frame
early (70_reset_and_hazards.md section 2). -/

namespace Sys2Proof.Machine

/-! ## DECODE of a message -/

theorem State.refReady.rows_eq {s : State} (h : s.refReady) : s.cfg.rows = refRows := Config.rows_of_refRegistry h.2.1

/-- W2: a payload that a configured row matches is within CAP. -/
theorem FirstMatch.length_le_cap {c : Config} (hw : c.wf = true) {p : List Byte} {pre : List Entry} {e : Entry}
    (h : FirstMatch c p pre e) : p.length ≤ c.cap := by
  obtain ⟨post, hrows, -, hm⟩ := h
  rw [hm.1]
  exact (Entry.wf_lengths (Config.wf_rows hw e (by simp [hrows]))).1

theorem frame_length (h : Header) (p : List Byte) : (frame h p).length = p.length + 2 := by simp [frame]

/-- R161: what DECODE answers for a frame whose payload a configured row matches. -/
theorem vcuDecode_firstMatch {c : Config} (hw : c.wf = true) {h : Header} {p : List Byte} (hh : h.byte ≠ terminator)
    (hp : terminator ∉ p) {pre : List Entry} {e : Entry} (hfirst : FirstMatch c p pre e) (rest : List Byte) :
    ∃ prm, codecDecode e.codec p = .ok prm ∧
      vcuDecode c (frame h p ++ rest) = .ok (.hit ((frame h p).length : Int) h.sender h.receiver e.kind prm) := by
  obtain ⟨hsnd, hrcv⟩ := header_fields h
  obtain ⟨prm, hprm, hhit⟩ := decodeFrame_firstMatch hw ⟨h.sender, h.receiver, p⟩ ((p.length + 2 : Nat) : Int) hfirst
  refine ⟨prm, hprm, ?_⟩
  rw [frame_append, vcuDecode_frame c h.byte p rest hh hp, if_neg (Nat.not_lt.mpr (hfirst.length_le_cap hw)), hsnd,
    hrcv, frame_length]
  exact hhit

theorem vcuDecode_noMatch {c : Config} (hw : c.wf = true) {h : Header} {p : List Byte} (hh : h.byte ≠ terminator)
    (hp : terminator ∉ p) (hcap : p.length ≤ c.cap) (hnone : ∀ e ∈ c.rows, ¬ Matches p e) (rest : List Byte) :
    vcuDecode c (frame h p ++ rest) = .ok (.noRow ((frame h p).length : Int) h.sender h.receiver) := by
  obtain ⟨hsnd, hrcv⟩ := header_fields h
  rw [frame_append, vcuDecode_frame c h.byte p rest hh hp, if_neg (Nat.not_lt.mpr hcap), hsnd, hrcv, frame_length]
  exact decodeFrame_noRow hw _ _ hnone

/-- Only a message has a typed message. -/
theorem wireBytes_ne_nil_of_typed {i : Instr} {m : Message} (hm : typedMessage (shadowedBy i) = some m) :
    wireBytes i ≠ [] := fun hreq => by
  rw [shadowedBy_request hreq] at hm
  cases i, hreq using request_cases <;> cases hm

/-- R160, R90: under REF_REGISTRY DECODE reads a well-formed message as the one that shadows it. -/
theorem vcuDecode_message {c : Config} (hw : c.wf = true) (hreg : c.registry = refRegistry) {i : Instr} {m : Message}
    (hi : i.wf = true) (hm : typedMessage (shadowedBy i) = some m) (rest : List Byte) :
    vcuDecode c (wireBytes i ++ rest) =
      .ok (.hit ((wireBytes i).length : Int) m.sender m.receiver m.kind m.params) := by
  have hne := wireBytes_ne_nil_of_typed hm
  obtain ⟨j, e, h, p, prm, hmsg, hfirst, hframe⟩ := shadowedBy_firstRow hne
  obtain ⟨hh, hp⟩ := (wf_iff_frame hframe).mp hi
  obtain ⟨prm', hprm', hdec⟩ := vcuDecode_firstMatch hw hh hp (hfirst.firstMatch (Config.rows_of_refRegistry hreg)) rest
  obtain rfl : prm' = prm := Except.ok.inj (hprm'.symm.trans hmsg.decodes)
  obtain rfl : ⟨e.kind, prm', h.sender, h.receiver⟩ = m := Option.some.inj (hmsg.typed.symm.trans hm)
  rw [hframe]
  exact hdec

/-- Settles O35. -/
theorem decodeReadsEveryMessage : Obligations.DecodeReadsEveryMessage :=
  fun _ _ _ rest ⟨hw, hreg⟩ hi hm => exec_decode_of_ok hw (vcuDecode_message hw hreg hi hm rest)

/-! ## Running a message -/

/-- R277: in a ready state a well-formed message is delivered as the one that shadows it. -/
theorem delivers_of_typed {i : Instr} {n : Nat} {h : Header} {k : Kind} {prm : Params} (hi : i.wf = true)
    (hm : typedMessage (shadowedBy i) = some ⟨k, prm, h.sender, h.receiver⟩) (hn : (wireBytes i).length = n) :
    Delivers i n h k prm := by
  rintro s ⟨hw, hreg, ho⟩
  have hne := wireBytes_ne_nil_of_typed hm
  have hdec := vcuDecode_message hw hreg hi hm []
  rw [List.append_nil, hn] at hdec
  rw [exec_wire i s hne, pollOnce_hit hw ho hdec, Int.toNat_natCast]

/-- A well-formed field keeps a message well-formed. -/
theorem wf_and_field {b : Bool} {v : Byte} (hb : b = true) (hv : fieldWf v = true) : (b && fieldWf v) = true := by
  rw [hb, hv]; rfl

/-- Settles O40. -/
theorem replyMessagesAreDelivered : Obligations.ReplyMessagesAreDelivered := by
  intro h hh
  refine ⟨fun v hv => delivers_of_typed (wf_and_field hh hv) rfl rfl, fun _ => delivers_of_typed hh rfl rfl,
    fun _ => delivers_of_typed hh rfl rfl, fun _ => delivers_of_typed hh rfl rfl,
    fun _ _ => delivers_of_typed hh rfl rfl, fun _ => delivers_of_typed hh rfl rfl,
    fun _ => delivers_of_typed hh rfl rfl, fun z v hv => delivers_of_typed (wf_and_field hh hv) rfl rfl,
    delivers_of_typed hh rfl rfl, fun index hindex => delivers_of_typed hh ?_ rfl, delivers_of_typed hh rfl rfl⟩
  rw [shadowedBy_camnumReply hindex]
  rfl

/-- Settles O41. -/
theorem panTiltLensAndMenuMessagesAreDelivered : Obligations.PanTiltLensAndMenuMessagesAreDelivered := by
  intro h hh
  exact ⟨
    delivers_of_typed hh rfl rfl, delivers_of_typed hh rfl rfl, delivers_of_typed hh rfl rfl,
    delivers_of_typed hh rfl rfl, fun _ => delivers_of_typed hh rfl rfl, fun _ => delivers_of_typed hh rfl rfl,
    delivers_of_typed hh rfl rfl, delivers_of_typed hh rfl rfl, delivers_of_typed hh rfl rfl,
    fun _ => delivers_of_typed hh rfl rfl, fun _ => delivers_of_typed hh rfl rfl,
    fun _ _ _ _ h1 h2 h3 h4 =>
      delivers_of_typed (wf_and_field (wf_and_field (wf_and_field (wf_and_field hh h1) h2) h3) h4) rfl rfl,
    fun _ h1 => delivers_of_typed (wf_and_field hh h1) rfl rfl,
    fun _ h1 => delivers_of_typed (wf_and_field hh h1) rfl rfl, delivers_of_typed hh rfl rfl,
    fun _ h1 => delivers_of_typed (wf_and_field hh h1) rfl rfl,
    fun _ h1 => delivers_of_typed (wf_and_field hh h1) rfl rfl,
    fun _ _ _ _ h1 h2 => delivers_of_typed (wf_and_field (wf_and_field hh h1) h2) rfl rfl,
    fun _ _ _ _ h1 h2 => delivers_of_typed (wf_and_field (wf_and_field hh h1) h2) rfl rfl,
    delivers_of_typed hh rfl rfl, delivers_of_typed hh rfl rfl, fun _ => delivers_of_typed hh rfl rfl,
    delivers_of_typed hh rfl rfl, delivers_of_typed hh rfl rfl, delivers_of_typed hh rfl rfl,
    fun _ hv h4 h5 => delivers_of_typed (wf_and_field hh hv) (by rw [shadowedBy_menuMode h4 h5]; rfl) rfl,
    delivers_of_typed (wf_and_field hh rfl) rfl rfl, delivers_of_typed (wf_and_field hh rfl) rfl rfl,
    delivers_of_typed hh rfl rfl⟩

/-- Settles O42. -/
theorem imageMessagesAreDelivered : Obligations.ImageMessagesAreDelivered := by
  intro h hh
  exact ⟨
    fun _ => delivers_of_typed hh rfl rfl, delivers_of_typed hh rfl rfl, fun _ => delivers_of_typed hh rfl rfl,
    delivers_of_typed hh rfl rfl, fun _ => delivers_of_typed hh rfl rfl, delivers_of_typed hh rfl rfl,
    fun _ => delivers_of_typed hh rfl rfl, delivers_of_typed hh rfl rfl, fun _ => delivers_of_typed hh rfl rfl,
    delivers_of_typed hh rfl rfl, delivers_of_typed hh rfl rfl, delivers_of_typed hh rfl rfl,
    delivers_of_typed hh rfl rfl, fun _ h1 => delivers_of_typed (wf_and_field hh h1) rfl rfl,
    delivers_of_typed hh rfl rfl, fun _ => delivers_of_typed hh rfl rfl, delivers_of_typed hh rfl rfl,
    fun _ => delivers_of_typed hh rfl rfl, delivers_of_typed hh rfl rfl, fun _ => delivers_of_typed hh rfl rfl,
    delivers_of_typed hh rfl rfl, fun _ => delivers_of_typed hh rfl rfl, delivers_of_typed hh rfl rfl,
    fun _ => delivers_of_typed hh rfl rfl, delivers_of_typed hh rfl rfl, fun _ => delivers_of_typed hh rfl rfl,
    delivers_of_typed hh rfl rfl, fun _ => delivers_of_typed hh rfl rfl, delivers_of_typed hh rfl rfl,
    fun _ => delivers_of_typed hh rfl rfl, delivers_of_typed hh rfl rfl, fun _ => delivers_of_typed hh rfl rfl,
    delivers_of_typed hh rfl rfl, fun _ h1 => delivers_of_typed (wf_and_field hh h1) rfl rfl,
    delivers_of_typed hh rfl rfl, fun _ h1 => delivers_of_typed (wf_and_field hh h1) rfl rfl,
    delivers_of_typed hh rfl rfl, fun _ h1 => delivers_of_typed (wf_and_field hh h1) rfl rfl,
    delivers_of_typed hh rfl rfl, fun _ => delivers_of_typed hh rfl rfl, delivers_of_typed hh rfl rfl,
    fun _ => delivers_of_typed hh rfl rfl, delivers_of_typed hh rfl rfl, fun _ => delivers_of_typed hh rfl rfl,
    delivers_of_typed hh rfl rfl⟩

/-! ## A terminator inside a message -/

/-- W2: under REF_REGISTRY the longest row is within CAP. -/
theorem cap_of_refRegistry {c : Config} (hw : c.wf = true) (hreg : c.registry = refRegistry) : 13 ≤ c.cap := by
  obtain ⟨e, he, hlen⟩ := refRows_longest
  rw [← hlen]
  exact (Entry.wf_lengths (Config.wf_rows hw e (Config.rows_of_refRegistry hreg ▸ he))).1

/-- In each row of REF_REGISTRY that is `n` bytes longer than `pre`, some byte of `pre` differs from the fixed bits. -/
abbrev NoRowStarts (pre : List Byte) (n : Nat) : Prop :=
  ∀ e ∈ refRows, e.length = pre.length + n →
    ∃ k < pre.length, pre.getD k 0 &&& e.mask.getD k 0 ≠ e.signature.getD k 0

theorem no_match_of_noRowStarts {pre q : List Byte} (h : NoRowStarts pre q.length) :
    ∀ e ∈ refRows, ¬ Matches (pre ++ q) e := by
  rintro e he ⟨hlen, hbytes⟩
  obtain ⟨k, hk, hne⟩ := h e he (by rw [← hlen, List.length_append])
  have hbyte := hbytes k (by simp; omega)
  rw [List.getD_append _ _ _ _ hk] at hbyte
  exact hne hbyte

section
variable {s : State} {h : Header} (hs : s.refReady) (hh : h.wf = true)
include hs hh

/-- R286: a message with a terminator after the bytes `p` runs as the message whose payload is `p`. -/
theorem exec_endsEarly_as {i i' : Instr} {p rest : List Byte} {m : Message} (hi : wireBytes i = frame h p ++ rest)
    (hi' : wireBytes i' = frame h p) (hp : terminator ∉ p) (hm : typedMessage (shadowedBy i') = some m) :
    exec i s = .next (delivered s (p.length + 2) m) := by
  obtain ⟨hw, hreg, ho⟩ := hs
  have hdec := vcuDecode_message hw hreg ((wf_iff_frame hi').mpr ⟨header_byte_ne_terminator h hh, hp⟩) hm rest
  rw [hi', ← hi, frame_length] at hdec
  rw [exec_wire i s (by rw [hi]; exact List.cons_ne_nil _ _), pollOnce_hit hw ho hdec, Int.toNat_natCast]

/-- R286: where no row matches the bytes before the terminator, they are an unknown message. -/
theorem exec_endsEarly_unknown {i : Instr} {p rest : List Byte} (hi : wireBytes i = frame h p ++ rest)
    (hp : terminator ∉ p) (hlen : p.length ≤ 13) (hnone : ∀ e ∈ refRows, ¬ Matches p e) :
    exec i s = .next (skipped s (p.length + 2) h.sender h.receiver p) := by
  have hrows := hs.rows_eq
  obtain ⟨hw, hreg, ho⟩ := hs
  have hdec := vcuDecode_noMatch hw (header_byte_ne_terminator h hh) hp
    (hlen.trans (cap_of_refRegistry hw hreg)) (hrows ▸ hnone) rest
  rw [exec_wire i s (by rw [hi]; exact List.cons_ne_nil _ _), hi, pollOnce_noRow hw ho hdec, Int.toNat_natCast,
    frame_length, frame_append]
  simp

end

theorem clean_field {v : Byte} {p : List Byte} (hv : fieldWf v = true) (hp : terminator ∉ p) : terminator ∉ v :: p :=
  Laws.clean_cons ((fieldWf_iff v).mp hv) hp

theorem error_reply_alone_matches_no_row (z : Nibble) : ∀ e ∈ refRows, ¬ Matches [nib 6 z] e := by
  have all : ∀ z : Nibble, NoRowStarts [nib 6 z] 0 := by decide
  exact no_match_of_noRowStarts (q := []) (all z)

/-- Settles O43: each message with a field 0xFF, cut before the field. -/
theorem terminatorInAFieldEndsTheMessageEarly : Obligations.TerminatorInAFieldEndsTheMessageEarly := by
  intro s h hs hh
  have nil := Laws.clean_nil
  have unknown : ∀ {i : Instr} (pre q rest : List Byte), wireBytes i = frame h (pre ++ q) ++ rest →
      terminator ∉ pre → terminator ∉ q → (pre ++ q).length ≤ 13 → NoRowStarts pre q.length →
      exec i s = .next (skipped s ((pre ++ q).length + 2) h.sender h.receiver (pre ++ q)) :=
    fun pre q rest hi hpre hq hlen hrows =>
      exec_endsEarly_unknown hs hh hi (Laws.clean_append hpre hq) hlen (no_match_of_noRowStarts hrows)
  have cut : ∀ {i : Instr} (pre rest : List Byte), wireBytes i = frame h (pre ++ []) ++ rest →
      terminator ∉ pre → (pre ++ []).length ≤ 13 → NoRowStarts pre 0 →
      exec i s = .next (skipped s ((pre ++ []).length + 2) h.sender h.receiver (pre ++ [])) :=
    fun pre rest hi hpre => unknown pre [] rest hi hpre nil
  exact ⟨exec_endsEarly_as hs hh (i' := .completion h 0) (p := [0x50]) (rest := [0xFF]) rfl rfl (by decide) rfl,
    fun z => exec_endsEarly_unknown hs hh (p := [nib 6 z]) (rest := [0xFF]) rfl
      (Laws.clean_cons (Laws.clean_nib (by decide)) nil) (by simp) (error_reply_alone_matches_no_row z),
    fun v w x => cut [0x01, 0x06, 0x01] [v, w, x, 0xFF] rfl (by decide) (by decide) (by decide),
    fun v w x hv => exec_endsEarly_as hs hh (i' := .presetSpeed h v) (p := [0x01, 0x06, 0x01, v])
      (rest := [w, x, 0xFF]) rfl rfl (Laws.clean_append (p := [0x01, 0x06, 0x01]) (by decide) (clean_field hv nil)) rfl,
    fun v w x hv hw => unknown [0x01, 0x06, 0x01] [v, w] [x, 0xFF] rfl (by decide)
      (clean_field hv (clean_field hw nil)) (by simp) (show NoRowStarts _ 2 by decide),
    fun v w x hv hw hx => unknown [0x01, 0x06, 0x01] [v, w, x] [0xFF] rfl (by decide)
      (clean_field hv (clean_field hw (clean_field hx nil))) (by simp) (show NoRowStarts _ 3 by decide),
    cut [0x01, 0x04, 0x3F, 0x02] [0xFF] rfl (by decide) (by decide) (by decide),
    cut [0x01, 0x04, 0x3F, 0x01] [0xFF] rfl (by decide) (by decide) (by decide),
    cut [0x0A, 0x11, 0x13] [0xFF] rfl (by decide) (by decide) (by decide),
    cut [0x01, 0x06, 0x01] [0xFF] rfl (by decide) (by decide) (by decide),
    fun w pan tilt => cut [0x01, 0x06, 0x02] (w :: (digits4 pan ++ digits4 tilt ++ [0xFF])) rfl (by decide)
      (by decide) (by decide),
    fun v pan tilt hv => unknown [0x01, 0x06, 0x02] [v] (digits4 pan ++ digits4 tilt ++ [0xFF]) rfl (by decide)
      (clean_field hv nil) (by simp) (show NoRowStarts _ 1 by decide),
    fun w pan tilt => cut [0x01, 0x06, 0x03] (w :: (digits4 pan ++ digits4 tilt ++ [0xFF])) rfl (by decide)
      (by decide) (by decide),
    fun v pan tilt hv => unknown [0x01, 0x06, 0x03] [v] (digits4 pan ++ digits4 tilt ++ [0xFF]) rfl (by decide)
      (clean_field hv nil) (by simp) (show NoRowStarts _ 1 by decide),
    cut [0x01, 0x06, 0x06] [0xFF] rfl (by decide) (by decide) (by decide),
    cut [0x01, 0x04, 0x39] [0xFF] rfl (by decide) (by decide) (by decide),
    cut [0x01, 0x04, 0x61] [0xFF] rfl (by decide) (by decide) (by decide),
    cut [0x01, 0x04, 0x63] [0xFF] rfl (by decide) (by decide) (by decide),
    cut [0x01, 0x04, 0x66] [0xFF] rfl (by decide) (by decide) (by decide)⟩

end Sys2Proof.Machine

/-! The codecs over the rows of a well-formed registry (42_param_codecs.md section 4). W4 and W8 together say that a
signature is 0 on every bit its codec writes, so ORing and adding fill the fields, and no other bit changes. -/

namespace Sys2Proof.Machine

/-! ## Which bits a write changes -/

/-- From `b` to `b'` no bit changed but those listed, as (offset, bits of the byte). -/
def ChangesOnly (ws : List (Nat × Byte)) (b b' : List Byte) : Prop :=
  b'.length = b.length ∧
    ∀ k m, (∀ w ∈ ws, w.1 = k → m &&& w.2 = 0) → b'.getD k 0 &&& m = b.getD k 0 &&& m

theorem ChangesOnly.trans {ws ws' : List (Nat × Byte)} {b b' b'' : List Byte} (h : ChangesOnly ws b b')
    (h' : ChangesOnly ws' b' b'') : ChangesOnly (ws ++ ws') b b'' := by
  obtain ⟨hlen, hbits⟩ := h
  obtain ⟨hlen', hbits'⟩ := h'
  refine ⟨hlen'.trans hlen, fun k m hm => ?_⟩
  rw [hbits' k m fun w hw => hm w (List.mem_append_right ws hw),
    hbits k m fun w hw => hm w (List.mem_append_left ws' hw)]

theorem changesOnly_set {b : List Byte} {i : Nat} {v bits : Byte}
    (hv : ∀ m : Byte, m &&& bits = 0 → v &&& m = b.getD i 0 &&& m) : ChangesOnly [(i, bits)] b (b.set i v) := by
  refine ⟨List.length_set, fun k m hm => ?_⟩
  by_cases hk : i = k
  · subst hk
    by_cases hi : i < b.length
    · rw [List.getD_eq_getElem _ _ (by simpa using hi), List.getElem_set_self,
        hv m (hm (i, bits) List.mem_cons_self rfl)]
    · rw [List.getD_eq_default _ _ (by simpa using hi), List.getD_eq_default _ _ (by omega)]
  · rw [List.getD_eq_getElem?_getD, List.getElem?_set_ne hk, ← List.getD_eq_getElem?_getD]

/-- A sequence of writes succeeds and changes no bit but those listed. -/
def Changes (ws : List (Nat × Byte)) (b : List Byte) (r : Except Fault (List Byte)) : Prop :=
  ∃ b', r = .ok b' ∧ ChangesOnly ws b b'

theorem Changes.bind {ws ws' : List (Nat × Byte)} {b : List Byte} {r : Except Fault (List Byte)}
    {f : List Byte → Except Fault (List Byte)} (hr : Changes ws b r)
    (hf : ∀ b', ChangesOnly ws b b' → Changes ws' b' (f b')) : Changes (ws ++ ws') b (r >>= f) := by
  obtain ⟨b', rfl, hb'⟩ := hr
  obtain ⟨b'', hfb, hb''⟩ := hf b' hb'
  exact ⟨b'', hfb, hb'.trans hb''⟩

theorem changes_memWrite {b : List Byte} {i : Nat} (v : Byte) (h : i < b.length) :
    Changes [(i, 0xFF)] b (memWrite b i v) := by
  refine ⟨_, memWrite_ok v h, changesOnly_set fun m hm => ?_⟩
  rw [and_mask_full] at hm
  simp [hm]

/-- The bits of a mask that spares the low nibble are not those of a digit. -/
theorem nib_zero_and_eq_zero {m : Byte} (d : Nibble) (hm : m &&& 0x0F = 0) : nib 0 d &&& m = 0 := by
  have hlow : ∀ d : Nibble, nib 0 d &&& 0x0F = nib 0 d := by decide
  rw [← hlow d, BitVec.and_assoc, BitVec.and_comm 0x0F, hm]
  simp

theorem or_digit_and {m : Byte} (a : Byte) (d : Nibble) (hm : m &&& 0x0F = 0) : (a ||| nib 0 d) &&& m = a &&& m := by
  rw [BitVec.and_or_distrib_right, nib_zero_and_eq_zero d hm]
  exact BitVec.or_zero

theorem changes_orDigit {b : List Byte} {i : Nat} (d : Nibble) (h : i < b.length) :
    Changes [(i, 0x0F)] b (orDigit b i d) := by
  refine ⟨_, orDigit_ok d h, changesOnly_set fun m hm => ?_⟩
  rw [or_digit_and _ d hm, List.getD_eq_getElem _ _ h]

theorem changes_pack2 {b : List Byte} {o : Nat} (v : Byte) (h : o + 1 < b.length) :
    Changes [(o, 0x0F), (o + 1, 0x0F)] b (pack2 b o v) :=
  (changes_orDigit _ (by omega)).bind fun _ hb => changes_orDigit _ (by rw [hb.1]; omega)

theorem changes_pack4 {b : List Byte} {o : Nat} (v : Half) (h : o + 3 < b.length) :
    Changes [(o, 0x0F), (o + 1, 0x0F), (o + 2, 0x0F), (o + 3, 0x0F)] b (pack4 b o v) :=
  (changes_orDigit _ (by omega)).bind fun _ h₁ => (changes_orDigit _ (by rw [h₁.1]; omega)).bind fun _ h₂ =>
    (changes_orDigit _ (by rw [h₂.1, h₁.1]; omega)).bind fun _ h₃ =>
      changes_orDigit _ (by rw [h₃.1, h₂.1, h₁.1]; omega)

/-- A byte with a zero low nibble. -/
theorem eq_nib_of_low_clear {a : Byte} (ha : a &&& 0x0F = 0) : a = nib (high a) 0 := by
  have all : ∀ a : Byte, a &&& 0x0F = 0 → a = nib (high a) 0 := by decide
  exact all a ha

/-- R152: adding a nibble over a zero nibble is ORing it. -/
theorem add_digit_eq_or {a : Byte} (ha : a &&& 0x0F = 0) (d : Nibble) : a + nib 0 d = a ||| nib 0 d := by
  rw [eq_nib_of_low_clear ha, nib_zero_add, nib_zero_or]

theorem changes_addDigit {b : List Byte} {i : Nat} (d : Nibble) (h : i < b.length) (hclear : b.getD i 0 &&& 0x0F = 0) :
    Changes [(i, 0x0F)] b (addByte b i (nib 0 d)) := by
  refine ⟨_, addByte_ok _ h, changesOnly_set fun m hm => ?_⟩
  rw [List.getD_eq_getElem _ _ h] at hclear ⊢
  rw [add_digit_eq_or hclear, or_digit_and _ d hm]

theorem changes_addByte {b : List Byte} {i : Nat} (v : Byte) (h : i < b.length) :
    Changes [(i, 0xFF)] b (addByte b i v) := by
  refine ⟨_, addByte_ok v h, changesOnly_set fun m hm => ?_⟩
  rw [and_mask_full] at hm
  simp [hm]

/-! ## Parameters of a shape -/

theorem shape_oneByte {prm : Params} (h : prm.shape = .oneByte) : ∃ v, prm = .oneByte v := by
  cases prm <;> cases h; exact ⟨_, rfl⟩
theorem shape_twoByte {prm : Params} (h : prm.shape = .twoByte) : ∃ v, prm = .twoByte v := by
  cases prm <;> cases h; exact ⟨_, rfl⟩
theorem shape_ptPosition {prm : Params} (h : prm.shape = .ptPosition) :
    ∃ v w pan tilt, prm = .ptPosition v w pan tilt := by
  cases prm <;> cases h; exact ⟨_, _, _, _, rfl⟩
theorem shape_ptDrive {prm : Params} (h : prm.shape = .ptDrive) : ∃ v w x y, prm = .ptDrive v w x y := by
  cases prm <;> cases h; exact ⟨_, _, _, _, rfl⟩
theorem shape_socket {prm : Params} (h : prm.shape = .socket) : ∃ z, prm = .socket z := by
  cases prm <;> cases h; exact ⟨_, rfl⟩
theorem shape_errorReply {prm : Params} (h : prm.shape = .errorReply) : ∃ z v, prm = .errorReply z v := by
  cases prm <;> cases h; exact ⟨_, _, rfl⟩
theorem shape_cameraNumber {prm : Params} (h : prm.shape = .cameraNumber) : ∃ z, prm = .cameraNumber z := by
  cases prm <;> cases h; exact ⟨_, rfl⟩
theorem shape_memory {prm : Params} (h : prm.shape = .memory) : ∃ v w, prm = .memory v w := by
  cases prm <;> cases h; exact ⟨_, _, rfl⟩

/-! ## Fresh buffers -/

/-- Every bit that the codec writes is 0. -/
def Fresh (c : CodecId) (b : List Byte) : Prop := ∀ w ∈ c.writes, b.getD w.1 0 &&& w.2 = 0

/-- R154: the check passes for the codec's own shape only, or for a codec without parameters. -/
theorem CheckPasses.shape_eq {c : CodecId} {prm : Params} (h : CheckPasses c prm) (hc : c ≠ .none) :
    prm.shape = codecShape c := by
  obtain h | h := h
  · exact absurd h hc
  · exact h.1

/-- R156: the writes of the encode direction over a fresh buffer change the codec's own bits only. -/
theorem codecWrite_changes {c : CodecId} {b : List Byte} {prm : Params} (hlen : c.minLen ≤ b.length)
    (hfresh : Fresh c b) (hcheck : CheckPasses c prm) : Changes c.writes b (codecWrite c b prm) := by
  by_cases hnone : c = .none
  · subst hnone
    exact ⟨b, codecWrite_none b prm, rfl, fun _ _ _ => rfl⟩
  have hshape := hcheck.shape_eq hnone
  cases c <;> simp only [CodecId.minLen] at hlen
  case none => exact absurd rfl hnone
  case byteCmd | byteRsp =>
    obtain ⟨v, rfl⟩ := shape_oneByte hshape
    exact changes_memWrite v (by omega)
  case pCmd | pRsp =>
    obtain ⟨v, rfl⟩ := shape_oneByte hshape
    exact changes_orDigit (low v) (by omega)
  case pqCmd | pqRsp =>
    obtain ⟨v, rfl⟩ := shape_oneByte hshape
    exact changes_pack2 v (by omega)
  case pqrsCmd | pqrsRsp =>
    obtain ⟨v, rfl⟩ := shape_twoByte hshape
    exact changes_pack4 v (by omega)
  case ptAbs =>
    obtain ⟨v, w, pan, tilt, rfl⟩ := shape_ptPosition hshape
    exact (changes_memWrite v (by omega)).bind fun _ h₁ => (changes_memWrite w (by rw [h₁.1]; omega)).bind fun _ h₂ =>
      (changes_pack4 pan (by rw [h₂.1, h₁.1]; omega)).bind fun _ h₃ =>
        changes_pack4 tilt (by rw [h₃.1, h₂.1, h₁.1]; omega)
  case ptResp =>
    obtain ⟨v, w, pan, tilt, rfl⟩ := shape_ptPosition hshape
    exact (changes_pack4 pan (by omega)).bind fun _ h₁ => changes_pack4 tilt (by rw [h₁.1]; omega)
  case ptDrive =>
    obtain ⟨v, w, x, y, rfl⟩ := shape_ptDrive hshape
    exact (changes_memWrite v (by omega)).bind fun _ h₁ => (changes_memWrite w (by rw [h₁.1]; omega)).bind fun _ h₂ =>
      (changes_memWrite x (by rw [h₂.1, h₁.1]; omega)).bind fun _ h₃ =>
        changes_memWrite y (by rw [h₃.1, h₂.1, h₁.1]; omega)
  case socket =>
    obtain ⟨z, rfl⟩ := shape_socket hshape
    exact changes_addDigit z (by omega) (hfresh (0, 0x0F) (by simp [CodecId.writes]))
  case error =>
    obtain ⟨z, v, rfl⟩ := shape_errorReply hshape
    exact (changes_addDigit z (by omega) (hfresh (0, 0x0F) (by simp [CodecId.writes]))).bind fun _ h₁ =>
      changes_addByte v (by rw [h₁.1]; omega)
  case camnum =>
    obtain ⟨z, rfl⟩ := shape_cameraNumber hshape
    exact changes_addDigit z (by omega) (hfresh (1, 0x0F) (by simp [CodecId.writes]))
  case memory =>
    obtain ⟨v, w, rfl⟩ := shape_memory hshape
    exact changes_memWrite v (by omega)

/-! ## The signature of a well-formed row -/

/-- W8: a bit that a row's codec writes is not fixed. -/
theorem Entry.mask_and_writes {cap : Nat} {e : Entry} (h : e.wf cap = true) {w : Nat × Byte}
    (hw : w ∈ e.codec.writes) : e.mask.getD w.1 0xFF &&& w.2 = 0 := by
  obtain ⟨-, -, -, -, -, -, -, -, hwrites⟩ := Entry.wf_iff.mp h
  simp only [Entry.writesVariable, List.all_eq_true, beq_iff_eq] at hwrites
  exact hwrites w hw

/-- W8: the bytes a row's codec writes are within the row, since a byte outside has no variable bit. -/
theorem Entry.mask_and_writes_getD {cap : Nat} {e : Entry} (h : e.wf cap = true) {w : Nat × Byte}
    (hw : w ∈ e.codec.writes) : e.mask.getD w.1 0 &&& w.2 = 0 := by
  have hbits := Entry.mask_and_writes h hw
  by_cases hlt : w.1 < e.mask.length
  · rwa [List.getD_eq_getElem _ _ hlt] at hbits ⊢
  · rw [List.getD_eq_default _ _ (by omega)]
    simp

/-- W4, W8: a signature is fresh for its row's codec. -/
theorem Entry.signature_fresh {cap : Nat} {e : Entry} (h : e.wf cap = true) : Fresh e.codec e.signature := by
  intro w hw
  rw [← Entry.signature_and_mask h, BitVec.and_assoc, Entry.mask_and_writes_getD h hw]
  simp

theorem Entry.minLen_le_signature {cap : Nat} {e : Entry} (h : e.wf cap = true) :
    e.codec.minLen ≤ e.signature.length := by
  obtain ⟨-, hsig, hmin⟩ := Entry.wf_lengths h
  omega

/-- R154: a parameter value that does not pass raises the shape error or the range error. -/
theorem codecCheck_cases (c : CodecId) (prm : Params) :
    (c ≠ .none ∧ prm.shape ≠ codecShape c ∧ codecCheck c prm = .error .paramShape) ∨
    ((c = .pCmd ∨ c = .pRsp) ∧ AboveDigit prm ∧ codecCheck c prm = .error .paramRange) ∨
    (CheckPasses c prm ∧ codecCheck c prm = .ok ()) := by
  by_cases hpass : CheckPasses c prm
  · exact .inr (.inr ⟨hpass, codecCheck_of_passes hpass⟩)
  have hnone : c ≠ .none := fun h => hpass (.inl h)
  by_cases hshape : prm.shape = codecShape c
  · have hrange : (c = .pCmd ∨ c = .pRsp) ∧ AboveDigit prm := by
      by_contra hn
      exact hpass (.inr ⟨hshape, hn⟩)
    exact .inr (.inl ⟨hrange.1, hrange.2, codecCheck_range hrange.1 hrange.2⟩)
  · exact .inl ⟨hnone, hshape, codecCheck_shape hnone hshape⟩

/-- R154, R155: the encode direction succeeds only when its check passes. -/
theorem codecEncode_ok {c : CodecId} {b p : List Byte} {prm : Params} (h : codecEncode c b prm = .ok p) :
    CheckPasses c prm ∧ codecWrite c b prm = .ok p := by
  obtain ⟨-, -, hx⟩ | ⟨-, -, hx⟩ | ⟨hpass, hok⟩ := codecCheck_cases c prm
  · rw [codecEncode_of_error b hx] at h; cases h
  · rw [codecEncode_of_error b hx] at h; cases h
  · refine ⟨hpass, ?_⟩
    cases hw : codecWrite c b prm with
    | error f => simp only [codecEncode, hok, hw] at h; cases h
    | ok p' => simp only [codecEncode, hok, hw] at h; exact congrArg Except.ok (Except.ok.inj h)

/-- Settles O32: under the mask the bits written do not count, and the signature is its own fixed bits. -/
theorem encodedPayloadMatchesItsRow : Obligations.EncodedPayloadMatchesItsRow := by
  intro cap e prm P hw henc
  obtain ⟨hcheck, hwrite⟩ := codecEncode_ok henc
  obtain ⟨P', hP', hlen, hbits⟩ := codecWrite_changes (Entry.minLen_le_signature hw) (Entry.signature_fresh hw) hcheck
  obtain rfl : P = P' := Except.ok.inj (hwrite.symm.trans hP')
  have hsig := (Entry.wf_signature_mask_lengths hw).1
  refine matches_iff.mpr ⟨hlen.trans hsig, fun k _ => ?_⟩
  rw [hbits k (e.mask.getD k 0) fun w hw' hk => hk ▸ Entry.mask_and_writes_getD hw hw', Entry.signature_and_mask hw]

/-! ## Reading the fields back -/

theorem exists_cons_of_le {n : Nat} {l : List Byte} (h : n + 1 ≤ l.length) : ∃ a l', l = a :: l' ∧ n ≤ l'.length := by
  cases l with
  | nil => simp at h
  | cons a l' => exact ⟨a, l', rfl, by simpa using h⟩

theorem exists_two {n : Nat} {l : List Byte} (h : n + 2 ≤ l.length) :
    ∃ a b l', l = a :: b :: l' ∧ n ≤ l'.length := by
  obtain ⟨a, l₁, rfl, h₁⟩ := exists_cons_of_le h
  obtain ⟨b, l₂, rfl, h₂⟩ := exists_cons_of_le h₁
  exact ⟨a, b, l₂, rfl, h₂⟩

theorem exists_four {n : Nat} {l : List Byte} (h : n + 4 ≤ l.length) :
    ∃ a b c d l', l = a :: b :: c :: d :: l' ∧ n ≤ l'.length := by
  obtain ⟨a, b, l₁, rfl, h₁⟩ := exists_two (n := n + 2) h
  obtain ⟨c, d, l₂, rfl, h₂⟩ := exists_two h₁
  exact ⟨a, b, c, d, l₂, rfl, h₂⟩

theorem toNat_mod_of_low_clear {a : Byte} (h : a &&& 0x0F = 0) : a.toNat % 16 = 0 := by
  have all : ∀ a : Byte, a &&& 0x0F = 0 → a.toNat % 16 = 0 := by decide
  exact all a h

theorem low_or_of_clear {n : Nat} {a : Byte} (h : a &&& 0x0F = 0) (v : BitVec n) (k : Nat) :
    low (a ||| digit v.toNat k) = v.extractLsb' (4 * k) 4 := low_or_digit (toNat_mod_of_low_clear h) v k

theorem join_or_two {a b : Byte} (ha : a &&& 0x0F = 0) (hb : b &&& 0x0F = 0) (v : Byte) :
    low (a ||| digit v.toNat 1) ++ low (b ||| digit v.toNat 0) = v := by
  rw [low_or_of_clear ha, low_or_of_clear hb]
  exact join_digits2 v

theorem quad_or_four {a b c d : Byte} (ha : a &&& 0x0F = 0) (hb : b &&& 0x0F = 0) (hc : c &&& 0x0F = 0)
    (hd : d &&& 0x0F = 0) (v : Half) :
    quad (a ||| digit v.toNat 3) (b ||| digit v.toNat 2) (c ||| digit v.toNat 1) (d ||| digit v.toNat 0) = v := by
  rw [quad, low_or_of_clear ha, low_or_of_clear hb, low_or_of_clear hc, low_or_of_clear hd]
  exact join_digits4 v

theorem nib_low_or {a v : Byte} (ha : a &&& 0x0F = 0) (hv : v.toNat ≤ 15) : nib 0 (low (a ||| nib 0 (low v))) = v := by
  have hlow := low_or_of_clear ha v 0
  rw [digit_zero_eq] at hlow
  rw [hlow]
  exact nib_low_of_le hv

theorem low_add_digit {a : Byte} (ha : a &&& 0x0F = 0) (z : Nibble) : low (a + nib 0 z) = z := by
  rw [eq_nib_of_low_clear ha, nib_zero_add, low_nib]

/-- R154: the P codecs pass a value of one digit only. -/
theorem CheckPasses.digit_le {c : CodecId} {v : Byte} (h : CheckPasses c (.oneByte v)) (hc : c = .pCmd ∨ c = .pRsp) :
    v.toNat ≤ 15 := by
  obtain rfl | ⟨-, hdigit⟩ := h
  · simp at hc
  · exact Nat.le_of_not_lt fun hv => hdigit ⟨hc, hv⟩

/-- R158: over a fresh signature the decode direction reads back what the encode direction wrote. -/
theorem codecWrite_then_decode {e : Entry} {prm : Params} (hlen : e.codec.minLen ≤ e.signature.length)
    (hfresh : Fresh e.codec e.signature) (hcheck : CheckPasses e.codec prm) :
    ∃ P, codecWrite e.codec e.signature prm = .ok P ∧ codecDecode e.codec P = .ok (normalised e prm) := by
  obtain ⟨n, b, m, kind, c⟩ := e
  dsimp only at hlen hfresh hcheck ⊢
  by_cases hnone : c = .none
  · subst hnone
    exact ⟨b, codecWrite_none b prm, rfl⟩
  have hshape := hcheck.shape_eq hnone
  have hclear := List.forall_iff_forall_mem.mpr hfresh
  cases c <;> simp only [CodecId.minLen] at hlen
  case none => exact absurd rfl hnone
  case byteCmd =>
    obtain ⟨v, rfl⟩ := shape_oneByte hshape
    obtain ⟨b0, b1, b2, b3, rest, rfl, -⟩ := exists_four (n := 0) hlen
    exact ⟨_, codecWrite_byteCmd .., codecDecode_byteCmd ..⟩
  case byteRsp =>
    obtain ⟨v, rfl⟩ := shape_oneByte hshape
    obtain ⟨b0, b1, rest, rfl, -⟩ := exists_two (n := 0) hlen
    exact ⟨_, codecWrite_byteRsp .., codecDecode_byteRsp ..⟩
  case pCmd =>
    obtain ⟨v, rfl⟩ := shape_oneByte hshape
    obtain ⟨b0, b1, b2, b3, rest, rfl, -⟩ := exists_four (n := 0) hlen
    exact ⟨_, codecWrite_pCmd .., (codecDecode_pCmd ..).trans
      (congrArg Except.ok (congrArg Params.oneByte (nib_low_or hclear (CheckPasses.digit_le hcheck (.inl rfl)))))⟩
  case pRsp =>
    obtain ⟨v, rfl⟩ := shape_oneByte hshape
    obtain ⟨b0, b1, rest, rfl, -⟩ := exists_two (n := 0) hlen
    exact ⟨_, codecWrite_pRsp .., (codecDecode_pRsp ..).trans
      (congrArg Except.ok (congrArg Params.oneByte (nib_low_or hclear (CheckPasses.digit_le hcheck (.inr rfl)))))⟩
  case pqCmd =>
    obtain ⟨v, rfl⟩ := shape_oneByte hshape
    obtain ⟨b0, b1, b2, b3, l, rfl, hl⟩ := exists_four (n := 1) hlen
    obtain ⟨b4, rest, rfl, -⟩ := exists_cons_of_le hl
    obtain ⟨h3, h4⟩ := hclear
    exact ⟨_, codecWrite_pqCmd .., (codecDecode_pqCmd ..).trans
      (congrArg Except.ok (congrArg Params.oneByte (join_or_two h3 h4 v)))⟩
  case pqRsp =>
    obtain ⟨v, rfl⟩ := shape_oneByte hshape
    obtain ⟨b0, b1, l, rfl, hl⟩ := exists_two (n := 1) hlen
    obtain ⟨b2, rest, rfl, -⟩ := exists_cons_of_le hl
    obtain ⟨h1, h2⟩ := hclear
    exact ⟨_, codecWrite_pqRsp .., (codecDecode_pqRsp ..).trans
      (congrArg Except.ok (congrArg Params.oneByte (join_or_two h1 h2 v)))⟩
  case pqrsCmd =>
    obtain ⟨v, rfl⟩ := shape_twoByte hshape
    obtain ⟨b0, b1, b2, b3, l, rfl, hl⟩ := exists_four (n := 3) hlen
    obtain ⟨b4, b5, l', rfl, hl'⟩ := exists_two (n := 1) hl
    obtain ⟨b6, rest, rfl, -⟩ := exists_cons_of_le hl'
    obtain ⟨h3, h4, h5, h6⟩ := hclear
    exact ⟨_, codecWrite_pqrsCmd .., (codecDecode_pqrsCmd ..).trans
      (congrArg Except.ok (congrArg Params.twoByte (quad_or_four h3 h4 h5 h6 v)))⟩
  case pqrsRsp =>
    obtain ⟨v, rfl⟩ := shape_twoByte hshape
    obtain ⟨b0, b1, b2, b3, l, rfl, hl⟩ := exists_four (n := 1) hlen
    obtain ⟨b4, rest, rfl, -⟩ := exists_cons_of_le hl
    obtain ⟨h1, h2, h3, h4⟩ := hclear
    exact ⟨_, codecWrite_pqrsRsp .., (codecDecode_pqrsRsp ..).trans
      (congrArg Except.ok (congrArg Params.twoByte (quad_or_four h1 h2 h3 h4 v)))⟩
  case ptAbs =>
    obtain ⟨v, w, pan, tilt, rfl⟩ := shape_ptPosition hshape
    obtain ⟨b0, b1, b2, b3, l, rfl, hl⟩ := exists_four (n := 9) hlen
    obtain ⟨b4, b5, b6, b7, l', rfl, hl'⟩ := exists_four (n := 5) hl
    obtain ⟨b8, b9, b10, b11, l'', rfl, hl''⟩ := exists_four (n := 1) hl'
    obtain ⟨b12, rest, rfl, -⟩ := exists_cons_of_le hl''
    obtain ⟨-, -, h5, h6, h7, h8, h9, h10, h11, h12⟩ := hclear
    exact ⟨_, codecWrite_ptAbs .., (codecDecode_ptAbs ..).trans
      (congrArg₂ (fun p t => Except.ok (Params.ptPosition v w p t))
        (quad_or_four h5 h6 h7 h8 pan) (quad_or_four h9 h10 h11 h12 tilt))⟩
  case ptResp =>
    obtain ⟨v, w, pan, tilt, rfl⟩ := shape_ptPosition hshape
    obtain ⟨b0, b1, b2, b3, l, rfl, hl⟩ := exists_four (n := 5) hlen
    obtain ⟨b4, b5, b6, b7, l', rfl, hl'⟩ := exists_four (n := 1) hl
    obtain ⟨b8, rest, rfl, -⟩ := exists_cons_of_le hl'
    obtain ⟨h1, h2, h3, h4, h5, h6, h7, h8⟩ := hclear
    exact ⟨_, codecWrite_ptResp .., (codecDecode_ptResp ..).trans
      (congrArg₂ (fun p t => Except.ok (Params.ptPosition 0 0 p t))
        (quad_or_four h1 h2 h3 h4 pan) (quad_or_four h5 h6 h7 h8 tilt))⟩
  case ptDrive =>
    obtain ⟨v, w, x, y, rfl⟩ := shape_ptDrive hshape
    obtain ⟨b0, b1, b2, b3, l, rfl, hl⟩ := exists_four (n := 3) hlen
    obtain ⟨b4, b5, l', rfl, hl'⟩ := exists_two (n := 1) hl
    obtain ⟨b6, rest, rfl, -⟩ := exists_cons_of_le hl'
    exact ⟨_, codecWrite_ptDrive .., codecDecode_ptDrive ..⟩
  case socket =>
    obtain ⟨z, rfl⟩ := shape_socket hshape
    obtain ⟨b0, rest, rfl, -⟩ := exists_cons_of_le (n := 0) hlen
    exact ⟨_, codecWrite_socket .., (codecDecode_socket ..).trans
      (congrArg Except.ok (congrArg Params.socket (low_add_digit hclear z)))⟩
  case error =>
    obtain ⟨z, v, rfl⟩ := shape_errorReply hshape
    obtain ⟨b0, b1, rest, rfl, -⟩ := exists_two (n := 0) hlen
    obtain ⟨h0, h1⟩ := hclear
    have hcode : b1 = 0 := (and_mask_full b1).symm.trans h1
    subst hcode
    exact ⟨_, codecWrite_error .., (codecDecode_error ..).trans
      (congrArg₂ (fun z' v' => Except.ok (Params.errorReply z' v')) (low_add_digit h0 z) (BitVec.zero_add v))⟩
  case camnum =>
    obtain ⟨z, rfl⟩ := shape_cameraNumber hshape
    obtain ⟨b0, b1, rest, rfl, -⟩ := exists_two (n := 0) hlen
    exact ⟨_, codecWrite_camnum .., (codecDecode_camnum ..).trans
      (congrArg Except.ok (congrArg Params.cameraNumber (low_add_digit hclear z)))⟩
  case memory =>
    obtain ⟨v, w, rfl⟩ := shape_memory hshape
    obtain ⟨b0, b1, b2, b3, l, rfl, hl⟩ := exists_four (n := 1) hlen
    obtain ⟨b4, rest, rfl, -⟩ := exists_cons_of_le hl
    exact ⟨_, codecWrite_memory .., codecDecode_memory ..⟩

/-- Settles O31: a well-formed signature is long enough and fresh, so what was written reads back. -/
theorem codecRoundTripOnAFreshTemplate : Obligations.CodecRoundTripOnAFreshTemplate := by
  intro cap e prm hw hcheck
  obtain ⟨P, hwrite, hread⟩ :=
    codecWrite_then_decode (Entry.minLen_le_signature hw) (Entry.signature_fresh hw) hcheck
  exact ⟨P, codecEncode_of_write hcheck hwrite, hread⟩

end Sys2Proof.Machine

/-! The request operations by their rules: the framer (40_framer.md), TEMPLATE (41_registry.md section 5), and ENCODE
with its round trip (43_entry_points.md). -/

namespace Sys2Proof.Machine

/-! ## The framer -/

/-- R36, R256: an error of SERIALIZE or ENCODE leaves the request's OUT as its caller handed it in. -/
theorem failsKeepingOut_of_exec {i : Instr} {s : State} {out : OutBuffer} {r : Response}
    (h : exec i s = .next (handedBack s (callerOut out) r)) : FailsKeepingOut i s out r :=
  ⟨_, h, callerOut_keeps 0 out⟩

/-- R116: the checks of SERIALIZE in order. -/
theorem vcuSerialize_addressRange {snd rcv : Byte} (haddr : 7 < snd.toNat ∨ 15 < rcv.toNat) (p : List Byte)
    (cap : Nat) (out : Memory) : vcuSerialize snd rcv p cap out = .error (.raised .addressRange) := by
  obtain ⟨-, hser⟩ | ⟨hin, -⟩ | ⟨hin, -⟩ := vcuSerialize_cases snd rcv p cap out
  · exact hser
  · omega
  · omega

theorem vcuSerialize_capacity {snd rcv : Byte} (haddr : snd.toNat ≤ 7 ∧ rcv.toNat ≤ 15) {p : List Byte} {cap : Nat}
    (hroom : cap < p.length + 2) (out : Memory) : vcuSerialize snd rcv p cap out = .error (.raised .capacity) := by
  obtain ⟨hout, -⟩ | ⟨-, -, hser⟩ | ⟨-, hfits, -⟩ := vcuSerialize_cases snd rcv p cap out
  · omega
  · exact hser
  · omega

/-- Settles O14. -/
theorem serializeFailsBeforeAnyWrite : Obligations.SerializeFailsBeforeAnyWrite := by
  intro s snd rcv p out hw hp
  exact ⟨fun haddr => failsKeepingOut_of_exec (exec_serialize_of_raised hw hp (vcuSerialize_addressRange haddr ..)),
    fun haddr hroom => failsKeepingOut_of_exec (exec_serialize_of_raised hw hp (vcuSerialize_capacity haddr hroom _))⟩

/-- R105: EXTRACT of a frame within CAP, with any bytes after it. -/
theorem vcuExtract_of_frame {c : Config} {h : Header} {p : List Byte} (hh : h.byte ≠ terminator) (hp : terminator ∉ p)
    (hcap : p.length ≤ c.cap) (rest : List Byte) :
    vcuExtract c (frame h p ++ rest) = .ok (.found ⟨h.sender, h.receiver, p⟩ (frame h p).length) := by
  obtain ⟨hsnd, hrcv⟩ := header_fields h
  rw [frame_append, vcuExtract_frame c h.byte p rest hh hp, if_neg (Nat.not_lt.mpr hcap), hsnd, hrcv, frame_length]

/-- A frame cut short stops before its terminator. -/
theorem terminator_not_mem_take_frame {h : Header} {p : List Byte} (hh : h.byte ≠ terminator) (hp : terminator ∉ p)
    {m : Nat} (hm : m < (frame h p).length) : terminator ∉ (frame h p).take m := by
  have hle : m ≤ (h.byte :: p).length := by
    rw [frame_length] at hm
    exact Nat.le_of_lt_succ hm
  rw [show frame h p = h.byte :: p ++ [terminator] from rfl, List.take_append_of_le_length hle]
  exact fun hmem => Laws.clean_cons hh hp (List.mem_of_mem_take hmem)

/-- Settles O12. -/
theorem extractIsStableUnderPartialData : Obligations.ExtractIsStableUnderPartialData := by
  intro s h p hw hh hp hcap
  have hbyte := header_byte_ne_terminator h hh
  exact ⟨fun m hm => exec_extract_of_ok hw (vcuExtract_incomplete s.cfg _ (terminator_not_mem_take_frame hbyte hp hm)),
    fun rest => exec_extract_of_ok hw (vcuExtract_of_frame hbyte hp hcap rest)⟩

/-- Settles O39: the header byte of the pair (7, 15) is the terminator. -/
theorem addressPairSevenFifteenNeverDecodes : Obligations.AddressPairSevenFifteenNeverDecodes := by
  intro s p rest out hw hp hroom
  obtain ⟨m, hser, -⟩ := vcuSerialize_ok (snd := 7) (rcv := 15) (callerOut out) (by decide) (by decide) hroom
  have hexec := exec_serialize_of_ok hw hp hser
  have hlen : (headerByte 7 15 :: (p ++ [terminator])).length = p.length + 2 := by simp
  refine ⟨⟨m, ?_⟩, exec_decode_of_ok hw (vcuDecode_atZero s.cfg _)⟩
  rw [hexec, EncodeResponse.done, hlen]
  rfl

/-! ## TEMPLATE -/

/-- Settles O19. -/
theorem templateGivesTheFirstRowOfAKind : Obligations.TemplateGivesTheFirstRowOfAKind := fun _ _ hw =>
  ⟨fun _ _ hfirst => exec_template_of_ok hw (vcuTemplate_first hfirst),
    fun hnone => exec_template_of_error hw (vcuTemplate_unknown hnone)⟩

/-- W6: no row holds the kind UNKNOWN. -/
theorem Entry.kind_ne_unknown {cap : Nat} {e : Entry} (h : e.wf cap = true) : e.kind ≠ .unknown := by
  obtain ⟨-, -, -, -, -, -, hkind, -⟩ := Entry.wf_iff.mp h
  exact hkind

/-- R131: every other kind has a row in REF_REGISTRY. -/
theorem exists_refRow_of_kind {k : Kind} (hk : k ≠ .unknown) : ∃ e ∈ refRows, e.kind = k := by
  cases k
  case unknown => exact absurd rfl hk
  all_goals decide

/-- Settles O20. -/
theorem templateFailsOnlyForUnknown : Obligations.TemplateFailsOnlyForUnknown := by
  rintro s ⟨hw, hreg⟩
  have hrows := Config.rows_of_refRegistry hreg
  refine ⟨exec_template_of_error hw (vcuTemplate_unknown fun e he =>
    Entry.kind_ne_unknown (Config.wf_rows hw e he)), fun k hk => ?_⟩
  obtain ⟨hnone, -⟩ | ⟨pre, e, hfirst, htmpl⟩ := vcuTemplate_cases s.cfg k
  · obtain ⟨e, he, hkind⟩ := exists_refRow_of_kind hk
    exact absurd hkind (hnone e (hrows ▸ he))
  · obtain ⟨post, hsplit, -⟩ := id hfirst
    exact ⟨e, pre.length, hfirst.kind_eq, by rw [← hrows, hsplit]; simp, exec_template_of_ok hw htmpl⟩

/-- R127: row 33 is the only row of REF_REGISTRY whose kind an earlier row holds. -/
theorem refRows_kind_ne : ∀ j < 82, j ≠ 33 → ∀ k < j, (refRows[k]?.map (·.kind)) ≠ refRows[j]?.map (·.kind) := by
  decide +kernel

theorem firstOfKind_refRows {c : Config} (hc : c.rows = refRows) {j : Nat} {e : Entry} (hrow : refRows[j]? = some e)
    (hj : j ≠ 33) : FirstOfKind c e.kind (refRows.take j) e := by
  obtain ⟨hlt, rfl⟩ := List.getElem?_eq_some_iff.mp hrow
  refine ⟨refRows.drop (j + 1), ?_, fun d hd hkind => ?_, rfl⟩
  · rw [hc, ← List.drop_eq_getElem_cons hlt, List.take_append_drop]
  · obtain ⟨k, hk, rfl⟩ := List.mem_take_iff_getElem.mp hd
    refine refRows_kind_ne j hlt hj k (by omega) ?_
    rw [hrow, List.getElem?_eq_getElem (by omega), Option.map_some, Option.map_some, hkind]

/-- R90: row 33 overlaps no earlier row. -/
theorem firstRow_menuEnterVariant :
    FirstRow [0x01, 0x7E, 0x01, 0x02, 0x00, 0x01] 33
      ⟨6, [0x01, 0x7E, 0x01, 0x02, 0x00, 0x01], List.replicate 6 0xFF, .menuEnter, .none⟩ := by
  have hm : Matches [0x01, 0x7E, 0x01, 0x02, 0x00, 0x01]
      ⟨6, [0x01, 0x7E, 0x01, 0x02, 0x00, 0x01], List.replicate 6 0xFF, .menuEnter, .none⟩ := ⟨rfl, by decide⟩
  refine ⟨rfl, hm, fun k hk d hd hmd => ?_⟩
  have hpair := overlapping_pair hk hd rfl hmd hm
  simp at hpair

/-- Settles O21. -/
theorem menuEnterEncodesAsItsFirstRow : Obligations.MenuEnterEncodesAsItsFirstRow := by
  rintro s ⟨hw, hreg⟩
  have hrows := Config.rows_of_refRegistry hreg
  have hfirst : FirstOfKind s.cfg .menuEnter (refRows.take 32)
      ⟨4, [0x01, 0x06, 0x06, 0x05], [0xFF, 0xFF, 0xFF, 0xFF], .menuEnter, .none⟩ :=
    firstOfKind_refRows hrows (j := 32) rfl (by decide)
  obtain ⟨prm, hprm, hcls⟩ := vcuClassify_firstMatch hw (firstRow_menuEnterVariant.firstMatch hrows)
  obtain rfl : Params.none = prm := Except.ok.inj hprm
  exact ⟨⟨_, rfl, exec_template_of_ok hw (vcuTemplate_first hfirst)⟩, exec_classify_of_ok hw hcls⟩

/-! ## ENCODE -/

/-- R155: over a row's signature the encode direction succeeds when its check passes. -/
theorem codecEncode_of_passes {cap : Nat} {e : Entry} {prm : Params} (hw : e.wf cap = true)
    (hcheck : CheckPasses e.codec prm) :
    ∃ p, codecEncode e.codec e.signature prm = .ok p ∧ p.length = e.signature.length := by
  obtain ⟨p, hwrite, hlen, -⟩ := codecWrite_changes (Entry.minLen_le_signature hw) (Entry.signature_fresh hw) hcheck
  exact ⟨p, codecEncode_of_write hcheck hwrite, hlen⟩

/-- Settles O37: the template's failure, the check's failures, and SERIALIZE's outcomes, in this order. -/
theorem encodeOutcomesInOrder : Obligations.EncodeOutcomesInOrder := by
  intro s k prm snd rcv out hw
  have fails : ∀ {x}, vcuEncode s.cfg k prm snd rcv out.capacity (callerOut out) = .error (.raised x) →
      FailsKeepingOut (.encode k prm snd rcv out) s out (.encode (.failed x)) :=
    fun h => failsKeepingOut_of_exec (exec_encode_of_raised hw h)
  refine ⟨fun hnone => fails (vcuEncode_unknown hnone ..), fun pre e hfirst =>
    ⟨fun ⟨hcodec, hshape⟩ =>
      fails (vcuEncode_first_error hfirst (codecEncode_of_error _ (codecCheck_shape hcodec hshape)) ..),
    fun ⟨hcodec, habove⟩ =>
      fails (vcuEncode_first_error hfirst (codecEncode_of_error _ (codecCheck_range hcodec habove)) ..),
    fun hcheck => ?_⟩⟩
  obtain ⟨p, henc, hlen⟩ := codecEncode_of_passes (Config.wf_rows hw e hfirst.mem) hcheck
  have hser := vcuEncode_first_ok hfirst henc snd rcv out.capacity (callerOut out)
  rw [← hlen]
  refine ⟨fun haddr => fails (hser.trans (vcuSerialize_addressRange haddr ..)),
    fun haddr hroom => fails (hser.trans (vcuSerialize_capacity haddr hroom _)), fun ⟨hsnd, hrcv⟩ hroom => ?_⟩
  obtain ⟨m, hdone, hread⟩ := vcuSerialize_ok (callerOut out) hsnd hrcv hroom
  refine ⟨p, m, henc, rfl, ?_, fun j hj => (hread j).trans (if_pos hj), keepsOutFrom_of_read hread⟩
  rw [exec_encode_of_ok hw (hser.trans hdone), EncodeResponse.done, List.length_cons, List.length_append]
  rfl

/-- Settles O36: but for row 33 a message's row is the first of its kind. -/
theorem encodeWritesEveryMessage : Obligations.EncodeWritesEveryMessage := by
  rintro s i m out ⟨hw, hreg⟩ hm hvariant hhead hroom
  have hne : wireBytes i ≠ [] := fun hreq => by rw [hreq] at hhead; cases hhead
  obtain ⟨j, e, h, p, prm, hmsg⟩ := exists_isMessage i hne
  obtain rfl : ⟨e.kind, prm, h.sender, h.receiver⟩ = m := Option.some.inj (hmsg.typed.symm.trans hm)
  have hj : j ≠ 33 := by
    rintro rfl
    obtain rfl : ⟨6, [0x01, 0x7E, 0x01, 0x02, 0x00, 0x01], List.replicate 6 0xFF, .menuEnter, .none⟩ = e :=
      Option.some.inj hmsg.row
    have hreads := hmsg.reads
    rw [instrOfKind, if_pos hmsg.payload_matches.1] at hreads
    exact hvariant h (Option.some.inj hreads).symm
  have hbytes : wireBytes i = headerByte (h.sender.setWidth 8) (h.receiver.setWidth 8) :: (p ++ [terminator]) := by
    rw [hmsg.writes] at hhead ⊢
    exact congrArg (· :: (p ++ [terminator])) (Option.some.inj hhead)
  have hlen : (wireBytes i).length = p.length + 2 := by rw [hbytes]; simp
  have hsnd : ∀ x : BitVec 3, (x.setWidth 8).toNat ≤ 7 := by decide
  have hrcv : ∀ x : BitVec 4, (x.setWidth 8).toNat ≤ 15 := by decide
  obtain ⟨mem, hser, hread⟩ := vcuSerialize_ok (callerOut out) (hsnd h.sender) (hrcv h.receiver) (hlen ▸ hroom)
  have henc := vcuEncode_first_ok (firstOfKind_refRows (Config.rows_of_refRegistry hreg) hmsg.row hj) hmsg.encodes
    (h.sender.setWidth 8) (h.receiver.setWidth 8) out.capacity (callerOut out)
  rw [← hbytes, ← hlen] at hread
  rw [← hbytes] at hser
  exact ⟨mem, exec_encode_of_ok hw (henc.trans hser), fun j hj => (hread j).trans (if_pos hj),
    keepsOutFrom_of_read hread⟩

/-! ## The round trip -/

/-- R74, R113: the header byte that addresses in range encode to. -/
def encodedHeader (snd rcv : Byte) : Header := ⟨1, snd.setWidth 3, rcv.setWidth 4⟩

theorem headerByte_eq_byte {snd rcv : Byte} (hsnd : snd.toNat ≤ 7) (hrcv : rcv.toNat ≤ 15) :
    headerByte snd rcv = (encodedHeader snd rcv).byte := by
  have all : ∀ (x : BitVec 3) (y : BitVec 4), headerByte (x.setWidth 8) (y.setWidth 8) = (Header.mk 1 x y).byte := by
    decide
  have hs : (snd.setWidth 3).setWidth 8 = snd := BitVec.eq_of_toNat_eq (by simp; omega)
  have hr : (rcv.setWidth 4).setWidth 8 = rcv := BitVec.eq_of_toNat_eq (by simp; omega)
  rw [← hs, ← hr]
  simpa [encodedHeader, hs, hr] using all (snd.setWidth 3) (rcv.setWidth 4)

/-- R115: only the pair (7, 15) encodes to the terminator. -/
theorem encodedHeader_wf {snd rcv : Byte} (hsnd : snd.toNat ≤ 7) (hrcv : rcv.toNat ≤ 15)
    (hpair : ¬ (snd = 7 ∧ rcv = 15)) : (encodedHeader snd rcv).wf = true := by
  simp only [Header.wf, encodedHeader, Bool.not_eq_true', Bool.and_eq_false_iff, beq_eq_false_iff_ne]
  by_contra hn
  push Not at hn
  obtain ⟨⟨-, hs⟩, hr⟩ := hn
  refine hpair ⟨?_, ?_⟩
  · have := congrArg BitVec.toNat hs
    simp at this
    exact BitVec.eq_of_toNat_eq (by simp; omega)
  · have := congrArg BitVec.toNat hr
    simp at this
    exact BitVec.eq_of_toNat_eq (by simp; omega)

/-- Settles O38: the encoded payload matches its row, which by hypothesis is the first it matches, and reads back. -/
theorem encodeThenDecodeGivesTheMessageBack : Obligations.EncodeThenDecodeGivesTheMessageBack := by
  intro s t k prm snd rcv out n hdr P rest pre e hw hfirst hexec hresp hpair hclean hearlier
  obtain ⟨x, hx⟩ | ⟨pre', e', p, m, hfirst', henc, -, ⟨hsnd, hrcv⟩, -, hdone, -⟩ :=
    vcuEncode_outcome hw k prm snd rcv out.capacity (callerOut out)
  · rw [exec_encode_of_raised hw hx] at hexec
    cases hexec
    simp [handedBack, EncodeResponse.failed] at hresp
  obtain ⟨rfl, rfl⟩ := hfirst.unique hfirst'
  rw [exec_encode_of_ok hw hdone] at hexec
  cases hexec
  simp only [handedBack, EncodeResponse.done, List.append_cancel_left_eq, List.cons.injEq, and_true,
    Response.encode.injEq, EncodeResponse.mk.injEq, true_and, Option.some.injEq] at hresp
  obtain ⟨rfl, rfl, hbytes⟩ := hresp
  obtain rfl : p = P := List.append_cancel_right hbytes
  have hentry := Config.wf_rows hw e hfirst.mem
  have hmatch : FirstMatch s.cfg p pre e := by
    obtain ⟨post, hsplit, -⟩ := hfirst
    exact ⟨post, hsplit, hearlier, encodedPayloadMatchesItsRow s.cfg.cap e prm p hentry henc⟩
  obtain ⟨p', henc', hread⟩ := codecRoundTripOnAFreshTemplate s.cfg.cap e prm hentry (codecEncode_ok henc).1
  obtain rfl : p = p' := Except.ok.inj (henc.symm.trans henc')
  obtain ⟨prm', hread', hdec⟩ := vcuDecode_firstMatch hw
    (header_byte_ne_terminator _ (encodedHeader_wf hsnd hrcv hpair)) hclean hmatch rest
  obtain rfl : prm' = normalised e prm := Except.ok.inj (hread'.symm.trans hread)
  rw [hfirst.kind_eq, frame, ← headerByte_eq_byte hsnd hrcv] at hdec
  exact exec_decode_of_ok hw hdec

end Sys2Proof.Machine

/-! One pass of POLL's loop (70_reset_and_hazards.md section 1): DECODE of a stream reads its first frame only, and a
message runs as one pass over its frame. -/

namespace Sys2Proof.Machine

/-! ## DECODE of a stream -/

/-- R107: bytes after the first terminator play no part. -/
theorem vcuDecode_append (c : Config) {buf : List Byte} (h : terminator ∈ buf) (b : List Byte) :
    vcuDecode c (buf ++ b) = vcuDecode c buf := by
  obtain hnone | ⟨rest, rfl⟩ | ⟨hdr, p, rest, rfl, hh, hp⟩ := stream_cases buf
  · exact absurd h hnone
  · rw [List.cons_append, vcuDecode_atZero, vcuDecode_atZero]
  · rw [List.cons_append, List.append_assoc, List.cons_append, vcuDecode_frame c hdr p _ hh hp,
      vcuDecode_frame c hdr p _ hh hp]

/-- R161: what DECODE answers on any stream: want of bytes, a corrupt frame, or a whole frame of the stream, with or
without a row for its payload. -/
theorem vcuDecode_cases {c : Config} (hw : c.wf = true) (buf : List Byte) :
    (terminator ∉ buf ∧ vcuDecode c buf = .ok .needMore) ∨
    terminator ∈ buf ∧
      ((∃ why, vcuDecode c buf = .ok (.bad why)) ∨
      ∃ n : Nat, 0 < n ∧ n ≤ buf.length ∧
        ((∃ snd rcv, vcuDecode c buf = .ok (.noRow n snd rcv)) ∨
        ∃ snd rcv k prm, vcuDecode c buf = .ok (.hit n snd rcv k prm))) := by
  obtain hnone | ⟨rest, rfl⟩ | ⟨hdr, p, rest, rfl, hh, hp⟩ := stream_cases buf
  · exact .inl ⟨hnone, vcuDecode_incomplete c buf hnone⟩
  · exact .inr ⟨List.mem_cons_self, .inl ⟨_, vcuDecode_atZero c rest⟩⟩
  · refine .inr ⟨by simp, ?_⟩
    rw [vcuDecode_frame c hdr p rest hh hp]
    split
    · exact .inl ⟨_, rfl⟩
    · refine .inr ⟨p.length + 2, by omega, by simp, ?_⟩
      obtain ⟨hdec, -⟩ | ⟨_, e, _, prm, -, -, -, -, hdec⟩ :=
        decodeFrame_cases c hw ⟨hdr.extractLsb' 4 3, hdr.extractLsb' 0 4, p⟩ ((p.length + 2 : Nat) : Int)
      · exact .inl ⟨_, _, hdec⟩
      · exact .inr ⟨_, _, _, _, hdec⟩

/-! ## One pass of the loop -/

/-- R119: a pass stands behind the gate of the configuration. -/
theorem pollOnce_illFormed {s : State} (hw : s.cfg.wf = false) (bytes : List Byte) :
    pollOnce bytes s = .refused .illFormedConfiguration := by
  simp [pollOnce, whenConfigured, hw]

/-- R277: bytes after the frame at the front play no part in a pass. -/
theorem pollOnce_append {buf : List Byte} (h : terminator ∈ buf) (b : List Byte) (s : State) :
    pollOnce (buf ++ b) s = pollOnce buf s := by
  cases hw : s.cfg.wf with
  | false => rw [pollOnce_illFormed hw, pollOnce_illFormed hw]
  | true =>
    cases ho : s.conn with
    | closed => rw [pollOnce_closed hw ho, pollOnce_closed hw ho]
    | opened =>
      have happ := vcuDecode_append s.cfg h b
      obtain ⟨hnone, -⟩ | ⟨-, ⟨why, hd⟩ | ⟨n, hpos, hle, ⟨snd, rcv, hd⟩ | ⟨snd, rcv, k, prm, hd⟩⟩⟩ :=
        vcuDecode_cases hw buf
      · exact absurd h hnone
      · rw [pollOnce_bad hw ho hd, pollOnce_bad hw ho (happ.trans hd)]
      · have hpayload : ((buf ++ b).drop 1).take (n - 2) = (buf.drop 1).take (n - 2) := by
          rw [List.drop_append_of_le_length (by omega), List.take_append_of_le_length (by simp; omega)]
        rw [pollOnce_noRow hw ho hd, pollOnce_noRow hw ho (happ.trans hd), Int.toNat_natCast, hpayload]
      · rw [pollOnce_hit hw ho hd, pollOnce_hit hw ho (happ.trans hd)]

theorem terminator_mem_frame (h : Header) (p : List Byte) : terminator ∈ frame h p := by simp [frame]

/-- Settles O51: what decodes is the frame at the front of rx. -/
theorem runningADecodedMessageIsAPassOverRx : Obligations.RunningADecodedMessageIsAPassOverRx := by
  intro s i hdec
  obtain ⟨h, p, rest, hi, -, -, hrx⟩ := decodeWire_ok hdec
  have hmem : terminator ∈ wireBytes i := hi ▸ terminator_mem_frame h p
  rw [hrx, pollOnce_append hmem, exec_wire i s (List.ne_nil_of_mem hmem)]

/-- R276: a POLL that wants bytes ends, when it is no RECV or rx keeps within RX_MAX. -/
theorem endPoll_of_fits {s : State} (h : s.task = .receiving → ∀ n, s.cfg.rxMax = some n → s.rx.length ≤ n) :
    endPoll s = { s with task := .idle } := by
  obtain hend | ⟨htask, hover, -⟩ := endPoll_cases s
  · exact hend
  · have hfits := h htask
    unfold State.overflowing at hover
    split at hover
    · next n hmax => exact absurd (hfits n hmax) (Nat.not_le.mpr (of_decide_eq_true hover))
    · cases hover

/-- R276: a RECV that leaves rx above RX_MAX closes the connection. -/
theorem endPoll_of_overflow {s : State} {n : Nat} (htask : s.task = .receiving) (hmax : s.cfg.rxMax = some n)
    (h : n < s.rx.length) : endPoll s = closedWith s (.overflow s.cur) := by
  simp [endPoll, htask, State.overflowing, hmax, h, closedWith, State.emit, State.shut, State.withTask]

/-! ## The obligations about messages -/

theorem terminator_mem_wireBytes {i : Instr} (hi : wireBytes i ≠ []) : terminator ∈ wireBytes i := by
  obtain ⟨h, p, hframe⟩ := wireBytes_frame i hi
  exact hframe ▸ terminator_mem_frame h p

/-- Settles O44. -/
theorem messageRunsOnePassOfPoll : Obligations.MessageRunsOnePassOfPoll := by
  intro i s hi hw
  rw [exec_wire i s hi]
  refine ⟨fun hc => pollOnce_closed hw hc _, fun ho => ⟨?_, fun _ hd => pollOnce_bad hw ho hd,
    fun _ _ _ hd => pollOnce_noRow hw ho hd, fun _ _ _ _ _ hd => pollOnce_hit hw ho hd⟩⟩
  obtain ⟨hnone, -⟩ | ⟨-, ⟨why, hd⟩ | ⟨n, -, -, ⟨snd, rcv, hd⟩ | ⟨snd, rcv, k, prm, hd⟩⟩⟩ :=
    vcuDecode_cases hw (wireBytes i)
  · exact absurd (terminator_mem_wireBytes hi) hnone
  all_goals exact ⟨_, hd, nofun⟩

/-- Settles O45. -/
theorem headerTerminatorClosesTheConnection : Obligations.HeaderTerminatorClosesTheConnection := by
  intro i s hhead hw ho
  obtain ⟨rest, hbytes⟩ := List.head?_eq_some_iff.mp hhead
  rw [exec_wire i s (by rw [hbytes]; exact List.cons_ne_nil _ _), hbytes]
  exact pollOnce_bad hw ho (vcuDecode_atZero s.cfg rest)

/-- Settles O46: each outcome of a pass leaves these parts as they are. -/
theorem messageLeavesTheRestOfTheStateAlone : Obligations.MessageLeavesTheRestOfTheStateAlone := by
  intro i s t hi hexec
  cases hw : s.cfg.wf with
  | false => rw [exec_illFormed hw] at hexec; cases hexec
  | true =>
    rw [exec_wire i s hi] at hexec
    obtain ⟨-, ht⟩ | ⟨-, -, ht⟩ | ⟨-, why, -, ht⟩ | ⟨-, n, snd, rcv, p, ht⟩ | ⟨-, n, snd, rcv, k, p, ht⟩ :=
        pollOnce_cases (wireBytes i) s hw <;>
      obtain rfl := Host.Outcome.next.inj (hexec.symm.trans ht)
    case inr.inl =>
      obtain hend | ⟨-, -, hend⟩ := endPoll_cases s <;> simp [hend]
    all_goals simp

end Sys2Proof.Machine

/-! One step (70_reset_and_hazards.md section 1): where it finds what to run, what it can lead to, and what it keeps. -/

namespace Sys2Proof.Machine

/-! ## Where a step finds what to run -/

theorem step_of_decoded {s : State} {i : Instr} (ht : s.task ≠ .idle) (hdec : decodeWire s.rx = .ok i) :
    step s = exec i s := by
  cases htask : s.task
  case idle => exact absurd htask ht
  all_goals simp only [step, fetch, htask, hdec]

theorem step_of_undecoded {s : State} {why : WireReject} (ht : s.task ≠ .idle) (hdec : decodeWire s.rx = .error why) :
    step s = pollOnce s.rx s := by
  cases htask : s.task
  case idle => exact absurd htask ht
  all_goals simp only [step, fetch, htask, hdec]

/-- R277: while a POLL is under way a step is one pass over rx, whether or not rx decodes to a message (O51). -/
theorem step_of_polling {s : State} (ht : s.task ≠ .idle) : step s = pollOnce s.rx s := by
  cases hdec : decodeWire s.rx with
  | error why => exact step_of_undecoded ht hdec
  | ok i => rw [step_of_decoded ht hdec, runningADecodedMessageIsAPassOverRx s i hdec]

section
variable {s : State} {rest : List Input} (ht : s.task = .idle)
include ht

theorem step_of_nothing (hi : s.inputs = []) : step s = runIdle s := by
  simp only [step, fetch, fetchInput, ht, hi]

theorem step_of_request {r : PortRequest} {i : Instr} (hi : s.inputs = .request r :: rest)
    (hdec : decodePort r = .ok i) : step s = exec i (s.withInputs rest) := by
  simp only [step, fetch, fetchInput, ht, hi, hdec]

theorem step_of_badRequest {r : PortRequest} {why : PortReject} (hi : s.inputs = .request r :: rest)
    (hdec : decodePort r = .error why) : step s = .refused (.port why) := by
  simp only [step, fetch, fetchInput, ht, hi, hdec]

theorem step_of_recv {bytes : List Byte} (hi : s.inputs = .recv bytes :: rest) :
    step s = whenConfigured s (runRecv bytes (s.withInputs rest)) := by
  simp only [step, fetch, fetchInput, ht, hi]

theorem step_of_poll (hi : s.inputs = .poll :: rest) : step s = whenConfigured s (runPoll (s.withInputs rest)) := by
  simp only [step, fetch, fetchInput, ht, hi]

theorem step_of_send {k : Kind} {prm : Params} {snd rcv : Byte} (hi : s.inputs = .send k prm snd rcv :: rest) :
    step s = whenConfigured s (runSend k prm snd rcv (s.withInputs rest)) := by
  simp only [step, fetch, fetchInput, ht, hi]

theorem step_of_open (hi : s.inputs = .openConn :: rest) :
    step s = whenConfigured s (runOpen (s.withInputs rest)) := by
  simp only [step, fetch, fetchInput, ht, hi]

theorem step_of_close (hi : s.inputs = .closeConn :: rest) :
    step s = whenConfigured s (runClose (s.withInputs rest)) := by
  simp only [step, fetch, fetchInput, ht, hi]

end

/-- Settles O53. -/
theorem stepRunsTheDecodedInstruction : Obligations.StepRunsTheDecodedInstruction :=
  ⟨fun _ _ ht hdec => step_of_decoded ht hdec, fun _ _ _ _ ht hi hdec => step_of_request ht hi hdec⟩

/-! ## What an input does when taken -/

theorem runRecv_opened {s : State} (ho : s.conn = .opened) (bytes : List Byte) :
    runRecv bytes s = .next ((s.receive bytes).withTask .receiving) := by
  simp [runRecv, ho]

theorem runRecv_closed {s : State} (hc : s.conn = .closed) (bytes : List Byte) : runRecv bytes s = .next s := by
  simp [runRecv, hc]

theorem runPoll_opened {s : State} (ho : s.conn = .opened) : runPoll s = .next (s.withTask .polling) := by
  simp [runPoll, ho]

theorem runPoll_closed {s : State} (hc : s.conn = .closed) : runPoll s = .next s := by
  simp [runPoll, hc]

theorem runSend_closed {s : State} (hc : s.conn = .closed) (k : Kind) (prm : Params) (snd rcv : Byte) :
    runSend k prm snd rcv s = .next s := by
  simp [runSend, hc]

/-- Settles O49. -/
theorem harnessStepsBeginAsDescribed : Obligations.HarnessStepsBeginAsDescribed := by
  intro s rest hw ht
  refine ⟨fun hi => ?nothing, fun bytes hi => ?recv, fun hi => ?poll, fun hi => ?openConn, fun hi => ?closeConn⟩
  case nothing => rw [step_of_nothing ht hi, runIdle, whenConfigured_wf hw]
  case recv =>
    rw [step_of_recv ht hi, whenConfigured_wf hw]
    exact ⟨fun ho => runRecv_opened (s := s.withInputs rest) ho bytes,
      fun hc => runRecv_closed (s := s.withInputs rest) hc bytes⟩
  case poll =>
    rw [step_of_poll ht hi, whenConfigured_wf hw]
    exact ⟨fun ho => runPoll_opened (s := s.withInputs rest) ho, fun hc => runPoll_closed (s := s.withInputs rest) hc⟩
  case openConn =>
    rw [step_of_open ht hi, whenConfigured_wf hw, runOpen, State.openNew, ← ht]
    rfl
  case closeConn =>
    rw [step_of_close ht hi, whenConfigured_wf hw]
    rfl

/-- Settles O50. -/
theorem pollLoopFollowsDecode : Obligations.PollLoopFollowsDecode := by
  intro s hw ht
  rw [step_of_polling ht]
  refine ⟨fun hc => pollOnce_closed hw hc _, fun ho => ⟨fun hrx => ?_, fun _ hd => pollOnce_bad hw ho hd,
    fun _ _ _ hd => pollOnce_noRow hw ho hd, fun _ _ _ _ _ hd => pollOnce_hit hw ho hd⟩⟩
  rw [pollOnce_incomplete hw ho hrx]
  exact ⟨fun hpoll => by rw [endPoll_of_fits fun hrecv => absurd (hpoll.symm.trans hrecv) nofun],
    fun _ hfits => by rw [endPoll_of_fits fun _ => hfits],
    fun n hrecv hmax hlong => by rw [endPoll_of_overflow hrecv hmax hlong]⟩

/-! ## SEND -/

/-- R51, R279: whether ENCODE raises an error, and the bytes it writes, do not depend on what OUT held. A capacity
error means that not even MAX_FRAME bytes fit. -/
theorem vcuEncode_any_out {c : Config} (hw : c.wf = true) (k : Kind) (prm : Params) (snd rcv : Byte) (cap : Nat) :
    (∃ x, (x = .capacity → cap < c.maxFrame) ∧
      ∀ out, vcuEncode c k prm snd rcv cap out = .error (.raised x)) ∨
    ∃ bytes, ∀ out, ∃ m, vcuEncode c k prm snd rcv cap out = .ok (m, .done bytes) ∧
      ∀ j, j < bytes.length → m.read j = bytes[j]? := by
  obtain ⟨hnone, -⟩ | ⟨pre, e, hfirst, -⟩ := vcuTemplate_cases c k
  · exact .inl ⟨.unknownKind, nofun, fun out => vcuEncode_unknown hnone ..⟩
  have hentry := Config.wf_rows hw e hfirst.mem
  obtain ⟨hcap, hsig, hmin⟩ := Entry.wf_lengths hentry
  obtain ⟨x, hx, henc⟩ | ⟨p, -, -, henc, hlen⟩ :=
    codecEncode_cases e.codec e.signature prm (Entry.minLen_le_signature hentry)
  · refine .inl ⟨x, ?_, fun out => vcuEncode_first_error hfirst henc ..⟩
    obtain rfl | rfl := codecCheck_error hx <;> exact nofun
  have hser := vcuEncode_first_ok hfirst henc snd rcv cap
  by_cases haddr : 7 < snd.toNat ∨ 15 < rcv.toNat
  · exact .inl ⟨.addressRange, nofun, fun out => (hser out).trans (vcuSerialize_addressRange haddr ..)⟩
  have hin : snd.toNat ≤ 7 ∧ rcv.toNat ≤ 15 := by omega
  by_cases hroom : cap < p.length + 2
  · refine .inl ⟨.capacity, fun _ => ?_, fun out => (hser out).trans (vcuSerialize_capacity hin hroom _)⟩
    have hmax := Config.wf_maxFrame hw
    rw [Config.cap] at hcap
    omega
  · refine .inr ⟨headerByte snd rcv :: (p ++ [terminator]), fun out => ?_⟩
    obtain ⟨m, hdone, hread⟩ := vcuSerialize_ok out hin.1 hin.2 (Nat.not_lt.mp hroom)
    have hlen : ∀ j, j < (headerByte snd rcv :: (p ++ [terminator])).length → j < p.length + 2 := fun j hj => by
      simpa [Nat.lt_succ_iff] using hj
    exact ⟨m, (hser out).trans hdone, fun j hj => (hread j).trans (if_pos (hlen j hj))⟩

/-- R279: SEND on an open connection, by the answer of ENCODE for a capacity of MAX_FRAME. -/
theorem runSend_of_raised {s : State} (ho : s.conn = .opened) {k : Kind} {prm : Params} {snd rcv : Byte} {x : EncError}
    (h : vcuEncode s.cfg k prm snd rcv s.cfg.maxFrame [] = .error (.raised x)) :
    runSend k prm snd rcv s = .next (s.emit (.encodeError (.error x))) := by
  simp [runSend, ho, h]

theorem runSend_of_ok {s : State} (ho : s.conn = .opened) {k : Kind} {prm : Params} {snd rcv : Byte} {m : Memory}
    {bytes : List Byte} (h : vcuEncode s.cfg k prm snd rcv s.cfg.maxFrame [] = .ok (m, .done bytes))
    (hread : ∀ j, j < bytes.length → m.read j = bytes[j]?) :
    runSend k prm snd rcv s = .next ((s.transmit bytes).emit (.sent bytes.length)) := by
  have hall : outReadAll m 0 bytes.length = .ok bytes :=
    outReadAll_of_read m 0 bytes fun j hj => by rw [Nat.zero_add, hread j hj]
  simp [runSend, ho, h, EncodeResponse.done, hall]

/-- Settles O52: ENCODE for the same capacity takes the same branch whatever its OUT holds. -/
theorem sendAppendsTheEncodedFrame : Obligations.SendAppendsTheEncodedFrame := by
  intro s k prm snd rcv rest hw ht hi
  have hstep : step s = runSend k prm snd rcv (s.withInputs rest) := by
    rw [step_of_send ht hi, whenConfigured_wf hw]
  rw [hstep]
  refine ⟨fun hc => runSend_closed (s := s.withInputs rest) hc k prm snd rcv, fun ho held t hexec => ?_⟩
  obtain ⟨x, hcap, hx⟩ | ⟨bytes, hok⟩ := vcuEncode_any_out hw k prm snd rcv s.cfg.maxFrame
  · rw [exec_encode_of_raised hw (hx _)] at hexec
    cases hexec
    rw [runSend_of_raised (s := s.withInputs rest) ho (hx [])]
    refine ⟨fun n bytes hresp => ?_, fun e hresp => ?_⟩
    · simp [handedBack, EncodeResponse.failed] at hresp
    · obtain rfl : x = e := by simpa [handedBack, EncodeResponse.failed] using hresp
      exact ⟨fun hx => absurd (hcap hx) (Nat.lt_irrefl _), rfl⟩
  · obtain ⟨m, hm, -⟩ := hok (callerOut ⟨s.cfg.maxFrame, held⟩)
    obtain ⟨m', hm', hread⟩ := hok []
    rw [exec_encode_of_ok hw hm] at hexec
    cases hexec
    rw [runSend_of_ok (s := s.withInputs rest) ho hm' hread]
    refine ⟨fun n bytes' hresp => ?_, fun e hresp => ?_⟩
    · obtain ⟨rfl, rfl⟩ : bytes.length = n ∧ bytes = bytes' := by
        simpa [handedBack, EncodeResponse.done] using hresp
      rfl
    · simp [handedBack, EncodeResponse.done] at hresp

/-! ## The port -/

/-- A field of a request, or the request, is refused. -/
def PortRefuses {α : Type} (x : Except PortReject α) : Prop := ∃ why, x = .error why

section
variable {α β : Type}

theorem portRefuses_error (why : PortReject) : PortRefuses (.error why : Except PortReject α) ↔ True :=
  iff_true_intro ⟨why, rfl⟩

theorem portRefuses_ok (a : α) : PortRefuses (.ok a) ↔ False := ⟨nofun, False.elim⟩

/-- Fields are checked in order, and the check of a field does not bear on the value of the one before it. -/
theorem portRefuses_bind {x : Except PortReject α} {f : α → Except PortReject β} {P : Prop}
    (hf : ∀ a, PortRefuses (f a) ↔ P) : PortRefuses (x >>= f) ↔ PortRefuses x ∨ P := by
  cases x with
  | error why => exact ⟨fun _ => .inl ⟨why, rfl⟩, fun _ => ⟨why, rfl⟩⟩
  | ok a => exact (hf a).trans (by rw [portRefuses_ok, false_or])

theorem portRefuses_map {x : Except PortReject α} (f : α → β) :
    PortRefuses (x >>= fun a => .ok (f a)) ↔ PortRefuses x := by
  rw [portRefuses_bind fun _ => portRefuses_ok _, or_false]

end

/-- R271: a value wider than its field. -/
theorem portRefuses_fieldOf (w n : Nat) : PortRefuses (fieldOf w n) ↔ 2 ^ w ≤ n := by
  unfold fieldOf
  split
  · next h => rw [portRefuses_ok, false_iff]; exact Nat.not_le.mpr h
  · next h => rw [portRefuses_error, true_iff]; exact Nat.not_lt.mp h

theorem portRefuses_decodeParams (r : PortRequest) : PortRefuses (decodeParams r) ↔ 8 < r.tag ∨ WideField r := by
  have two : ∀ {w w' n n' : Nat} (f : BitVec w → BitVec w' → Params),
      PortRefuses (do .ok (f (← fieldOf w n) (← fieldOf w' n'))) ↔ 2 ^ w ≤ n ∨ 2 ^ w' ≤ n' := fun f => by
    rw [portRefuses_bind fun _ => portRefuses_map _, portRefuses_fieldOf, portRefuses_fieldOf]
  have four : ∀ {w₀ w₁ w₂ w₃ n₀ n₁ n₂ n₃ : Nat} (f : BitVec w₀ → BitVec w₁ → BitVec w₂ → BitVec w₃ → Params),
      PortRefuses (do .ok (f (← fieldOf w₀ n₀) (← fieldOf w₁ n₁) (← fieldOf w₂ n₂) (← fieldOf w₃ n₃))) ↔
        2 ^ w₀ ≤ n₀ ∨ 2 ^ w₁ ≤ n₁ ∨ 2 ^ w₂ ≤ n₂ ∨ 2 ^ w₃ ≤ n₃ := fun f => by
    rw [portRefuses_bind fun _ => portRefuses_bind fun _ => portRefuses_bind fun _ => portRefuses_map _,
      portRefuses_fieldOf, portRefuses_fieldOf, portRefuses_fieldOf, portRefuses_fieldOf]
  unfold decodeParams WideField
  split
  case h_10 =>
    simp only [portRefuses_error, or_false, true_iff]
    simp only [imp_false] at *
    omega
  all_goals next htag => simp only [htag, portRefuses_map, portRefuses_fieldOf, portRefuses_ok, two, four]; simp

/-- R102: a lookup in a table of ids fails above the last of them. -/
theorem portRefuses_decodeKind (r : PortRequest) : PortRefuses (decodeKind r) ↔ 81 < r.kind := by
  unfold decodeKind
  split
  · next h =>
    rw [portRefuses_ok, false_iff]
    exact Nat.not_lt.mpr (Nat.le_of_lt_succ (List.getElem?_eq_some_iff.mp h).1)
  · next h => rw [portRefuses_error, true_iff]; exact List.getElem?_eq_none_iff.mp h

theorem portRefuses_decodeCodec (r : PortRequest) : PortRefuses (decodeCodec r) ↔ 15 < r.codec := by
  unfold decodeCodec
  split
  · next h =>
    rw [portRefuses_ok, false_iff]
    exact Nat.not_lt.mpr (Nat.le_of_lt_succ (List.getElem?_eq_some_iff.mp h).1)
  · next h => rw [portRefuses_error, true_iff]; exact List.getElem?_eq_none_iff.mp h

theorem portRefuses_decodeDir (r : PortRequest) : PortRefuses (decodeDir r) ↔ 1 < r.dir := by
  unfold decodeDir
  rcases h : r.dir with - | - | n
  · simp [Dir.ofNumber, portRefuses_ok]
  · simp [Dir.ofNumber, portRefuses_ok]
  · simp [Dir.ofNumber, portRefuses_error]

/-- R102, R271: the port refuses the requests that are out of range in a field their operation names. -/
theorem portRefuses_decodePort (r : PortRequest) : PortRefuses (decodePort r) ↔ BadRequest r := by
  have hop : ∀ {n : Nat}, r.op.toNat = n → r.op = BitVec.ofNat 3 n := fun h => by
    rw [← h, BitVec.ofNat_toNat, BitVec.setWidth_eq]
  unfold decodePort BadRequest
  split
  case h_8 =>
    simp only [imp_false] at *
    have h7 : r.op = 7 := BitVec.eq_of_toNat_eq (show _ = 7 by omega)
    simp [h7, portRefuses_error]
  case h_4 _ h => simp [hop h, portRefuses_map, portRefuses_decodeKind]
  case h_5 _ h =>
    rw [portRefuses_bind fun _ => portRefuses_bind fun _ => portRefuses_map _, portRefuses_decodeDir,
      portRefuses_decodeCodec, portRefuses_decodeParams]
    simp [hop h, or_assoc]
  case h_7 _ h =>
    rw [portRefuses_bind fun _ => portRefuses_map _, portRefuses_decodeKind, portRefuses_decodeParams]
    simp [hop h]
  all_goals next h => simp [hop h, portRefuses_ok]

/-- The port gives a step request operations only. -/
theorem decodePort_ok {r : PortRequest} {i : Instr} (h : decodePort r = .ok i) : wireBytes i = [] := by
  have bind_ok : ∀ {α β : Type} {x : Except PortReject α} {f : α → Except PortReject β} {b : β},
      (x >>= f) = .ok b → ∃ a, f a = .ok b := fun {_ _ x _ _} hb => by
    cases x with
    | error => cases hb
    | ok a => exact ⟨a, hb⟩
  unfold decodePort at h
  split at h
  case h_4 => obtain ⟨k, hk⟩ := bind_ok h; cases hk; rfl
  case h_5 =>
    obtain ⟨d, hd⟩ := bind_ok h
    obtain ⟨c, hc⟩ := bind_ok hd
    obtain ⟨prm, hprm⟩ := bind_ok hc
    cases hprm
    rfl
  case h_7 =>
    obtain ⟨k, hk⟩ := bind_ok h
    obtain ⟨prm, hprm⟩ := bind_ok hk
    cases hprm
    rfl
  case h_8 => cases h
  all_goals cases h; rfl

/-- R271: past the port a request is not refused there. -/
theorem exec_request_ne_port {i : Instr} (hi : wireBytes i = []) (s : State) (why : PortReject) :
    exec i s ≠ .refused (.port why) := by
  cases hw : s.cfg.wf with
  | false => rw [exec_illFormed hw]; exact nofun
  | true =>
    by_cases hfits : ∀ snd rcv p out, i = .serialize snd rcv p out → p.length ≤ s.cfg.cap
    · obtain ⟨own, r, -, hx⟩ := exec_request hi hw hfits
      rw [hx s rfl]
      exact nofun
    · push Not at hfits
      obtain ⟨snd, rcv, p, out, rfl, hlong⟩ := hfits
      rw [overlongSerializePayloadIsRefused s snd rcv p out hw hlong]
      exact nofun

/-- Settles O10. -/
theorem portRefusesExactlyBadRequests : Obligations.PortRefusesExactlyBadRequests := by
  intro s r rest ht hi
  rw [← portRefuses_decodePort]
  cases hdec : decodePort r with
  | error why => exact ⟨fun _ => ⟨why, rfl⟩, fun _ => ⟨why, step_of_badRequest ht hi hdec⟩⟩
  | ok i =>
    rw [step_of_request ht hi hdec, portRefuses_ok, iff_false]
    exact fun ⟨why, hx⟩ => exec_request_ne_port (decodePort_ok hdec) _ why hx

/-! ## What a step can lead to -/

/-- R276 to R280: the next states of a configured block: a pass of the POLL under way, or the next input taken. -/
inductive Leads (s : State) : State → Prop
  | pass {t : State} (ht : s.task ≠ .idle) (hpass : pollOnce s.rx s = .next t) : Leads s t
  | rest (ht : s.task = .idle) : Leads s s
  | ignored (ht : s.task = .idle) (rest : List Input) : Leads s (s.withInputs rest)
  | request (ht : s.task = .idle) (rest : List Input) {i : Instr} (hi : wireBytes i = []) {t : State}
      (hexec : exec i (s.withInputs rest) = .next t) : Leads s t
  | recv (ht : s.task = .idle) (ho : s.conn = .opened) (rest : List Input) (bytes : List Byte) :
      Leads s (((s.withInputs rest).receive bytes).withTask .receiving)
  | poll (ht : s.task = .idle) (ho : s.conn = .opened) (rest : List Input) :
      Leads s ((s.withInputs rest).withTask .polling)
  | sent (ht : s.task = .idle) (rest : List Input) (bytes : List Byte) :
      Leads s (((s.withInputs rest).transmit bytes).emit (.sent bytes.length))
  | sendFailed (ht : s.task = .idle) (rest : List Input) (x : EncError) :
      Leads s ((s.withInputs rest).emit (.encodeError (.error x)))
  | openNew (ht : s.task = .idle) (rest : List Input) : Leads s (s.withInputs rest).openNew
  | shut (ht : s.task = .idle) (rest : List Input) : Leads s (s.withInputs rest).shut

/-- R119: every harness step stands behind the gate of the configuration. -/
theorem step_illFormed {s : State} (hw : s.cfg.wf = false) : ∃ why, step s = .refused why := by
  have gate : ∀ r : Result, whenConfigured s r = .refused .illFormedConfiguration := fun r => by
    simp [whenConfigured, hw]
  by_cases ht : s.task = .idle
  · rcases hi : s.inputs with - | ⟨input, rest⟩
    · exact ⟨_, (step_of_nothing ht hi).trans (gate _)⟩
    cases input with
    | request r =>
      cases hdec : decodePort r with
      | error why => exact ⟨_, step_of_badRequest ht hi hdec⟩
      | ok i => exact ⟨_, (step_of_request ht hi hdec).trans (exec_illFormed (s := s.withInputs rest) hw i)⟩
    | recv bytes => exact ⟨_, (step_of_recv ht hi).trans (gate _)⟩
    | poll => exact ⟨_, (step_of_poll ht hi).trans (gate _)⟩
    | send k prm snd rcv => exact ⟨_, (step_of_send ht hi).trans (gate _)⟩
    | openConn => exact ⟨_, (step_of_open ht hi).trans (gate _)⟩
    | closeConn => exact ⟨_, (step_of_close ht hi).trans (gate _)⟩
  · exact ⟨_, (step_of_polling ht).trans (pollOnce_illFormed hw _)⟩

/-- Settles O8. -/
theorem illFormedConfigurationAnswersNothing : Obligations.IllFormedConfigurationAnswersNothing := by
  refine fun s hw => ⟨exec_illFormed hw, fun t ht => ?_⟩
  obtain ⟨why, hx⟩ := step_illFormed hw
  rw [hx] at ht
  cases ht

theorem pollOnce_answers {s : State} (hw : s.cfg.wf = true) (bytes : List Byte) : ∃ t, pollOnce bytes s = .next t := by
  obtain ⟨-, h⟩ | ⟨-, -, h⟩ | ⟨-, _, -, h⟩ | ⟨-, _, _, _, _, h⟩ | ⟨-, _, _, _, _, _, h⟩ := pollOnce_cases bytes s hw <;>
    exact ⟨_, h⟩

/-- What a step of a configured block does: it answers one of the states above, or it refuses a request. -/
theorem step_configured {s : State} (hw : s.cfg.wf = true) :
    (∃ why, step s = .refused why) ∨ ∃ t, step s = .next t ∧ Leads s t := by
  by_cases ht : s.task = .idle
  · rcases hi : s.inputs with - | ⟨input, rest⟩
    · exact .inr ⟨s, (step_of_nothing ht hi).trans (whenConfigured_wf hw _), .rest ht⟩
    cases input with
    | request r =>
      cases hdec : decodePort r with
      | error why => exact .inl ⟨_, step_of_badRequest ht hi hdec⟩
      | ok i =>
        have hreq := decodePort_ok hdec
        rw [step_of_request ht hi hdec]
        obtain ⟨why, hx⟩ | ⟨own, r, -, hx⟩ := exec_request_cases hreq s.cfg
        · exact .inl ⟨why, hx _ rfl⟩
        · exact .inr ⟨_, hx _ rfl, .request ht rest hreq (hx _ rfl)⟩
    | recv bytes =>
      rw [step_of_recv ht hi, whenConfigured_wf hw]
      cases ho : s.conn with
      | closed => exact .inr ⟨_, runRecv_closed (s := s.withInputs rest) ho bytes, .ignored ht rest⟩
      | opened => exact .inr ⟨_, runRecv_opened (s := s.withInputs rest) ho bytes, .recv ht ho rest bytes⟩
    | poll =>
      rw [step_of_poll ht hi, whenConfigured_wf hw]
      cases ho : s.conn with
      | closed => exact .inr ⟨_, runPoll_closed (s := s.withInputs rest) ho, .ignored ht rest⟩
      | opened => exact .inr ⟨_, runPoll_opened (s := s.withInputs rest) ho, .poll ht ho rest⟩
    | send k prm snd rcv =>
      rw [step_of_send ht hi, whenConfigured_wf hw]
      cases ho : s.conn with
      | closed => exact .inr ⟨_, runSend_closed (s := s.withInputs rest) ho k prm snd rcv, .ignored ht rest⟩
      | opened =>
        obtain ⟨x, -, hx⟩ | ⟨bytes, hok⟩ := vcuEncode_any_out hw k prm snd rcv s.cfg.maxFrame
        · exact .inr ⟨_, runSend_of_raised (s := s.withInputs rest) ho (hx []), .sendFailed ht rest x⟩
        · obtain ⟨m, hm, hread⟩ := hok []
          exact .inr ⟨_, runSend_of_ok (s := s.withInputs rest) ho hm hread, .sent ht rest bytes⟩
    | openConn => exact .inr ⟨_, (step_of_open ht hi).trans (whenConfigured_wf hw _), .openNew ht rest⟩
    | closeConn => exact .inr ⟨_, (step_of_close ht hi).trans (whenConfigured_wf hw _), .shut ht rest⟩
  · obtain ⟨t, h⟩ := pollOnce_answers hw s.rx
    exact .inr ⟨t, (step_of_polling ht).trans h, .pass ht h⟩

theorem step_outcome (s : State) : (∃ why, step s = .refused why) ∨ ∃ t, step s = .next t ∧ Leads s t := by
  cases hw : s.cfg.wf with
  | false => exact .inl (step_illFormed hw)
  | true => exact step_configured hw

theorem leads_of_step {s t : State} (h : step s = .next t) : Leads s t := by
  obtain ⟨why, hx⟩ | ⟨t', hx, hleads⟩ := step_outcome s
  · rw [hx] at h; cases h
  · rw [hx] at h; cases h; exact hleads

/-! ## Every instruction, and every step -/

/-- Settles O7. -/
theorem configuredBlockRunsEveryInstruction : Obligations.ConfiguredBlockRunsEveryInstruction := by
  intro i s hw hfits
  by_cases hi : wireBytes i = []
  · obtain ⟨own, r, -, hx⟩ := exec_request hi hw hfits
    exact ⟨_, hx s rfl⟩
  · rw [exec_wire i s hi]
    exact pollOnce_answers hw _

/-- Settles O6: an instruction answers or refuses, and so does a step. -/
theorem nothingFaults : Obligations.NothingFaults := by
  refine ⟨fun i s f => ?exec, fun s f => ?step⟩
  case exec =>
    cases hw : s.cfg.wf with
    | false => rw [exec_illFormed hw]; exact nofun
    | true =>
      by_cases hi : wireBytes i = []
      · obtain ⟨why, hx⟩ | ⟨own, r, -, hx⟩ := exec_request_cases hi s.cfg <;> rw [hx s rfl] <;> exact nofun
      · obtain ⟨t, hx⟩ := pollOnce_answers hw (wireBytes i)
        rw [exec_wire i s hi, hx]
        exact nofun
  case step =>
    obtain ⟨why, hx⟩ | ⟨t, hx, -⟩ := step_outcome s <;> rw [hx] <;> exact nofun

theorem endPoll_cfg (s : State) : (endPoll s).cfg = s.cfg := by
  obtain h | ⟨-, -, h⟩ := endPoll_cases s <;> rw [h] <;> rfl

theorem pollOnce_cfg {bytes : List Byte} {s t : State} (h : pollOnce bytes s = .next t) : t.cfg = s.cfg := by
  obtain ⟨hw, -⟩ := whenConfigured_next h
  obtain ⟨-, ht⟩ | ⟨-, -, ht⟩ | ⟨-, _, -, ht⟩ | ⟨-, _, _, _, _, ht⟩ | ⟨-, _, _, _, _, _, ht⟩ :=
      pollOnce_cases bytes s hw <;>
    obtain rfl := Host.Outcome.next.inj (h.symm.trans ht)
  case inr.inl => exact endPoll_cfg s
  all_goals rfl

theorem exec_cfg {i : Instr} {s t : State} (h : exec i s = .next t) : t.cfg = s.cfg := by
  by_cases hi : wireBytes i = []
  · obtain ⟨own, r, -, rfl⟩ := exec_request_next hi h
    rfl
  · rw [exec_wire i s hi] at h
    exact pollOnce_cfg h

/-- Settles O5. -/
theorem noStepChangesTheConfiguration : Obligations.NoStepChangesTheConfiguration := by
  refine ⟨fun s t h => ?_, fun _ _ _ h => exec_cfg h⟩
  cases leads_of_step h with
  | pass _ hpass => exact pollOnce_cfg hpass
  | request _ rest _ hexec => exact exec_cfg (s := s.withInputs rest) hexec
  | _ => rfl

/-! ## The invariant -/

theorem RequestOutcome.own_wf {c : Config} {i : Instr} {own : List Memory} {r : Response}
    (h : RequestOutcome c i own r) : ∀ m ∈ own, Memory.wf m = true := by
  cases h with
  | serializeDone _ _ _ _ m _ hm | encodeDone _ _ _ _ _ m _ _ _ _ hm =>
    exact fun m' hm' => by rwa [List.mem_singleton.mp hm']
  | serializeFailed _ _ _ out | encodeFailed _ _ _ _ out =>
    exact fun m' hm' => by rw [List.mem_singleton.mp hm']; exact callerOut_wf out
  | _ => exact fun m' hm' => absurd hm' List.not_mem_nil

/-- R278: an event at or below the cursor joins those before it. -/
theorem offsets_append {events : List Event} {cur cur' : Nat} {e : Event}
    (h : ∀ e ∈ events, ∀ o, e.offset? = some o → o ≤ cur) (he : ∀ o, e.offset? = some o → o ≤ cur) (hcur : cur ≤ cur') :
    ∀ e' ∈ events ++ [e], ∀ o, e'.offset? = some o → o ≤ cur' := by
  intro e' he' o ho
  obtain hmem | hmem := List.mem_append.mp he'
  · exact (h e' hmem o ho).trans hcur
  · exact (he o (List.mem_singleton.mp hmem ▸ ho)).trans hcur

section
variable {s : State} (h : s.Inv)
include h

theorem State.Inv.withInputs (rest : List Input) : (s.withInputs rest).Inv :=
  ⟨h.configured, h.outsCanonical, h.closedEmpty, h.idleUnframed, h.bounded, h.offsetsReached⟩

theorem State.Inv.requested {own : List Memory} (hown : ∀ m ∈ own, Memory.wf m = true) (r : Response) :
    (s.requested own r).Inv :=
  ⟨h.configured, fun m hm => (List.mem_append.mp hm).elim (h.outsCanonical m) (hown m), h.closedEmpty, h.idleUnframed,
    h.bounded, h.offsetsReached⟩

theorem State.Inv.receiving (ho : s.conn = .opened) (bytes : List Byte) :
    ((s.receive bytes).withTask .receiving).Inv :=
  ⟨h.configured, h.outsCanonical, fun hc => absurd (ho.symm.trans hc) nofun, nofun, fun hn => absurd rfl hn,
    h.offsetsReached⟩

theorem State.Inv.polling (ht : s.task = .idle) : (s.withTask .polling).Inv :=
  ⟨h.configured, h.outsCanonical, h.closedEmpty, nofun, fun _ => h.bounded (by simp [ht]), h.offsetsReached⟩

/-- R279: an event without an offset. -/
theorem State.Inv.emit {e : Event} (he : e.offset? = none) : (s.emit e).Inv :=
  ⟨h.configured, h.outsCanonical, h.closedEmpty, h.idleUnframed, h.bounded,
    offsets_append h.offsetsReached (fun o ho => by rw [he] at ho; cases ho) (Nat.le_refl _)⟩

theorem State.Inv.transmit (bytes : List Byte) : (s.transmit bytes).Inv :=
  ⟨h.configured, h.outsCanonical, h.closedEmpty, h.idleUnframed, h.bounded, h.offsetsReached⟩

theorem State.Inv.openNew : s.openNew.Inv :=
  ⟨h.configured, h.outsCanonical, fun _ => rfl, fun _ => List.not_mem_nil, fun _ _ _ => Nat.zero_le _,
    fun _ he => absurd he List.not_mem_nil⟩

theorem State.Inv.shut : s.shut.Inv :=
  ⟨h.configured, h.outsCanonical, fun _ => rfl, fun _ => List.not_mem_nil, fun _ _ _ => Nat.zero_le _,
    h.offsetsReached⟩

theorem State.Inv.closedWith {e : Event} (he : ∀ o, e.offset? = some o → o ≤ s.cur) : (closedWith s e).Inv :=
  ⟨h.configured, h.outsCanonical, fun _ => rfl, fun _ => List.not_mem_nil, fun _ _ _ => Nat.zero_le _,
    offsets_append h.offsetsReached he (Nat.le_refl _)⟩

/-- R277: a POLL ends with no whole frame in rx and, in a RECV, within the bound. -/
theorem State.Inv.rests (hrx : terminator ∉ s.rx) (hfits : ∀ n, s.cfg.rxMax = some n → s.rx.length ≤ n) :
    State.Inv { s with task := .idle } :=
  ⟨h.configured, h.outsCanonical, h.closedEmpty, fun _ => hrx, fun _ => hfits, h.offsetsReached⟩

/-- R277: a frame is consumed and its event, at the offset of its first byte, emitted. -/
theorem State.Inv.consumed (ht : s.task ≠ .idle) (ho : s.conn = .opened) {e : Event} (he : e.offset? = some s.cur)
    (n : Nat) : ((s.emit e).advance n).Inv :=
  ⟨h.configured, h.outsCanonical, fun hc => absurd (ho.symm.trans hc) nofun, fun hidle => absurd hidle ht,
    fun hrecv m hm => ((List.drop_sublist n s.rx).length_le).trans (h.bounded hrecv m hm),
    offsets_append h.offsetsReached (fun o hoff => by rw [he] at hoff; cases hoff; exact Nat.le_refl _)
      (Nat.le_add_right _ _)⟩

theorem State.Inv.endPoll (hrx : terminator ∉ s.rx) : (endPoll s).Inv := by
  by_cases hover : s.task = .receiving ∧ ∃ n, s.cfg.rxMax = some n ∧ n < s.rx.length
  · obtain ⟨ht, n, hmax, hlong⟩ := hover
    rw [endPoll_of_overflow ht hmax hlong]
    exact h.closedWith fun o ho => by cases ho; exact Nat.le_refl _
  · have hfits : ∀ n, s.cfg.rxMax = some n → s.rx.length ≤ n := fun n hmax => by
      by_cases ht : s.task = .receiving
      · exact Nat.not_lt.mp fun hlong => hover ⟨ht, n, hmax, hlong⟩
      · exact h.bounded ht n hmax
    rw [endPoll_of_fits fun _ => hfits]
    exact h.rests hrx hfits

theorem State.Inv.pass (ht : s.task ≠ .idle) {t : State} (hpass : pollOnce s.rx s = .next t) : t.Inv := by
  obtain ⟨hc, hx⟩ | ⟨-, hrx, hx⟩ | ⟨-, why, -, hx⟩ | ⟨ho, n, snd, rcv, p, hx⟩ | ⟨ho, n, snd, rcv, k, p, hx⟩ :=
      pollOnce_cases s.rx s h.configured <;>
    obtain rfl := Host.Outcome.next.inj (hpass.symm.trans hx)
  · have hempty := h.closedEmpty hc
    exact h.rests (by simp [hempty]) (by simp [hempty])
  · exact h.endPoll hrx
  · exact h.closedWith fun o ho => by cases ho; exact Nat.le_refl _
  · exact h.consumed ht ho rfl n
  · exact h.consumed ht ho rfl n

end

/-- Settles O4: each state a step leads to has the invariant. -/
theorem everyStepKeepsTheInvariant : Obligations.EveryStepKeepsTheInvariant := by
  intro s t h hstep
  cases leads_of_step hstep with
  | pass ht hpass => exact h.pass ht hpass
  | rest => exact h
  | ignored _ rest => exact h.withInputs rest
  | request _ rest hi hexec =>
    obtain ⟨own, r, houtcome, rfl⟩ := exec_request_next hi hexec
    exact (h.withInputs rest).requested houtcome.own_wf r
  | recv _ ho rest bytes => exact (h.withInputs rest).receiving ho bytes
  | poll ht _ rest => exact (h.withInputs rest).polling ht
  | sent _ rest bytes => exact ((h.withInputs rest).transmit bytes).emit rfl
  | sendFailed _ rest x => exact (h.withInputs rest).emit rfl
  | openNew _ rest => exact (h.withInputs rest).openNew
  | shut _ rest => exact (h.withInputs rest).shut

end Sys2Proof.Machine

/-! The reset state and the codes (10_state.md), and runs: a RECV drains rx frame by frame, and how the bytes were cut
into RECVs does not bear on the end (40_framer.md section 3, 70_reset_and_hazards.md section 1). -/

namespace Sys2Proof.Machine

/-! ## Reset -/

/-- Settles O1. -/
theorem resetLeavesAnOpenEmptyHarness : Obligations.ResetLeavesAnOpenEmptyHarness := ⟨rfl, rfl, rfl, rfl⟩

theorem reset_wf : State.reset.cfg.wf = true := referenceRegistryIsWellFormed.1 refMaxFrame (by decide)

/-- Settles O2. -/
theorem resetChoicesOfTheModel : Obligations.ResetChoicesOfTheModel := ⟨rfl, reset_wf, rfl, rfl, rfl, rfl, rfl⟩

/-- Settles O3: the lists of the reset state are empty. -/
theorem resetMeetsTheInvariant : Obligations.ResetMeetsTheInvariant where
  configured := reset_wf
  outsCanonical _ hm := absurd hm List.not_mem_nil
  closedEmpty _ := rfl
  idleUnframed _ := List.not_mem_nil
  bounded _ _ _ := Nat.zero_le _
  offsetsReached _ he := absurd he List.not_mem_nil

/-- Settles O59. -/
theorem statusCodesAreThoseOfTheTable : Obligations.StatusCodesAreThoseOfTheTable := ⟨rfl, rfl, rfl, rfl, rfl⟩

/-! ## Draining rx -/

/-- R277, R280: bytes received by a harness part at rest; a closed connection discards them. -/
def EndState.receive (e : EndState) (bytes : List Byte) : EndState :=
  if e.conn = .closed then e else { e with rx := e.rx ++ bytes }

/-- R277: a frame of `n` bytes at the front of rx is consumed, and its event emitted. -/
def EndState.consume (e : EndState) (n : Nat) (event : Event) : EndState :=
  { e with rx := e.rx.drop n, cur := e.cur + n, events := e.events ++ [event] }

/-- R277: the connection is closed with an event, and rx discarded. -/
def EndState.close (e : EndState) (event : Event) : EndState :=
  { e with rx := [], conn := .closed, events := e.events ++ [event] }

/-- R277: the event of a frame of `n` bytes that matched no row. -/
def EndState.unknownEvent (e : EndState) (n : Nat) (snd : BitVec 3) (rcv : BitVec 4) : Event :=
  .unknown e.cur snd rcv ((e.rx.drop 1).take (n - 2))

/-- R277: the passes of a POLL, from a harness part to the one it rests in. -/
inductive Drains (c : Config) : EndState → EndState → Prop
  | closed {e : EndState} (hc : e.conn = .closed) : Drains c e e
  | wanting {e : EndState} (ho : e.conn = .opened) (hrx : terminator ∉ e.rx) : Drains c e e
  | corrupt {e : EndState} (ho : e.conn = .opened) {why : CorruptReason} (hd : vcuDecode c e.rx = .ok (.bad why)) :
    Drains c e (e.close (.corrupt e.cur why))
  | unknown {e e' : EndState} (ho : e.conn = .opened) {n : Nat} {snd : BitVec 3} {rcv : BitVec 4}
      (hd : vcuDecode c e.rx = .ok (.noRow n snd rcv)) (hn : 0 < n) (hle : n ≤ e.rx.length)
      (hrest : Drains c (e.consume n (e.unknownEvent n snd rcv)) e') : Drains c e e'
  | message {e e' : EndState} (ho : e.conn = .opened) {n : Nat} {snd : BitVec 3} {rcv : BitVec 4} {k : Kind}
      {prm : Params} (hd : vcuDecode c e.rx = .ok (.hit n snd rcv k prm)) (hle : n ≤ e.rx.length)
      (hrest : Drains c (e.consume n (.msg e.cur snd rcv k prm)) e') : Drains c e e'

/-- R277: a POLL comes to an end, since every frame takes a byte or more of rx. -/
theorem exists_drains {c : Config} (hw : c.wf = true) (e : EndState) : ∃ e', Drains c e e' := by
  induction hlen : e.rx.length using Nat.strongRecOn generalizing e with
  | _ len ih =>
    have shorter : ∀ {n} event, 0 < n → n ≤ e.rx.length → ∃ e', Drains c (e.consume n event) e' :=
      fun {n} event hn hle =>
        ih (len - n) (by omega) (e.consume n event) (by rw [← hlen]; exact List.length_drop)
    cases ho : e.conn with
    | closed => exact ⟨e, .closed ho⟩
    | opened =>
      obtain ⟨hnone, -⟩ | ⟨-, ⟨why, hd⟩ | ⟨n, hn, hle, ⟨snd, rcv, hd⟩ | ⟨snd, rcv, k, prm, hd⟩⟩⟩ :=
        vcuDecode_cases hw e.rx
      · exact ⟨e, .wanting ho hnone⟩
      · exact ⟨_, .corrupt ho hd⟩
      · obtain ⟨e', h⟩ := shorter (e.unknownEvent n snd rcv) hn hle
        exact ⟨e', .unknown ho hd hn hle h⟩
      · obtain ⟨e', h⟩ := shorter (.msg e.cur snd rcv k prm) hn hle
        exact ⟨e', .message ho hd hle h⟩

theorem Drains.eq_of_closed {c : Config} {e e' : EndState} (hc : e.conn = .closed) (h : Drains c e e') : e' = e := by
  cases h with
  | closed => rfl
  | wanting ho | corrupt ho | unknown ho | message ho => exact absurd (ho.symm.trans hc) nofun

/-- Where a POLL rests, another does nothing. -/
theorem Drains.rests {c : Config} {e e' : EndState} (h : Drains c e e') : Drains c e' e' := by
  induction h with
  | closed hc => exact .closed hc
  | wanting ho hrx => exact .wanting ho hrx
  | corrupt => exact .closed rfl
  | unknown _ _ _ _ _ ih | message _ _ _ _ ih => exact ih

/-! ## Receiving in parts -/

section
variable {e : EndState}

theorem EndState.receive_closed (hc : e.conn = .closed) (bytes : List Byte) : e.receive bytes = e :=
  if_pos hc

theorem EndState.receive_opened (ho : e.conn = .opened) (bytes : List Byte) :
    e.receive bytes = { e with rx := e.rx ++ bytes } := by
  simp [EndState.receive, ho]

theorem EndState.receive_nil : e.receive [] = e := by
  simp [EndState.receive]

theorem EndState.receive_append (b b' : List Byte) : e.receive (b ++ b') = (e.receive b).receive b' := by
  cases ho : e.conn with
  | closed => rw [receive_closed ho, receive_closed ho, receive_closed ho]
  | opened =>
    rw [receive_opened ho, receive_opened ho, receive_opened (e := { e with rx := e.rx ++ b }) ho, List.append_assoc]

/-- Bytes that arrive after a frame was consumed, and before. -/
theorem EndState.receive_consume (ho : e.conn = .opened) {n : Nat} (hle : n ≤ e.rx.length) (event : Event)
    (b : List Byte) : (e.consume n event).receive b = (e.receive b).consume n event := by
  rw [receive_opened (e := e.consume n event) ho, receive_opened ho, consume, consume,
    List.drop_append_of_le_length hle]

theorem EndState.unknownEvent_receive (ho : e.conn = .opened) {n : Nat} (hn : 0 < n) (hle : n ≤ e.rx.length)
    (snd : BitVec 3) (rcv : BitVec 4) (b : List Byte) :
    (e.receive b).unknownEvent n snd rcv = e.unknownEvent n snd rcv := by
  rw [receive_opened ho, unknownEvent, unknownEvent, List.drop_append_of_le_length (by omega),
    List.take_append_of_le_length (by rw [List.length_drop]; omega)]

end

theorem terminator_mem_of_decoded {c : Config} {buf : List Byte} {d : DecodeResponse} (h : vcuDecode c buf = .ok d)
    (hd : d.status ≠ .incomplete) : terminator ∈ buf := by
  by_contra hnone
  obtain rfl := Except.ok.inj ((vcuDecode_incomplete c buf hnone).symm.trans h)
  exact hd rfl

/-- Bytes that arrive while a POLL is under way, and after it came to rest: the frames consumed before their arrival
do not depend on them. -/
theorem Drains.receive {c : Config} {e e' e'' : EndState} {b : List Byte} (h : Drains c e e')
    (h' : Drains c (e'.receive b) e'') : Drains c (e.receive b) e'' := by
  have decoded : ∀ {e : EndState} {d : DecodeResponse}, e.conn = .opened → vcuDecode c e.rx = .ok d →
      d.status ≠ .incomplete → vcuDecode c (e.receive b).rx = .ok d := fun {e d} ho hd hstatus => by
    rw [EndState.receive_opened ho, vcuDecode_append c (terminator_mem_of_decoded hd hstatus), hd]
  have longer : ∀ {e : EndState} {n : Nat}, e.conn = .opened → n ≤ e.rx.length → n ≤ (e.receive b).rx.length :=
    fun {e n} ho hle => by
      rw [EndState.receive_opened ho, List.length_append]
      omega
  have stays : ∀ {e : EndState}, e.conn = .opened → (e.receive b).conn = .opened := fun {e} ho => by
    rw [EndState.receive_opened ho, ho]
  have cursor : ∀ {e : EndState}, e.conn = .opened → (e.receive b).cur = e.cur := fun {e} ho => by
    rw [EndState.receive_opened ho]
  induction h with
  | closed | wanting => exact h'
  | @corrupt e ho why hd =>
    rw [EndState.receive_closed rfl] at h'
    obtain rfl := h'.eq_of_closed rfl
    have h := Drains.corrupt (stays ho) (decoded ho hd nofun)
    rw [cursor ho] at h
    rwa [EndState.receive_opened ho] at h ⊢
  | @unknown e _ ho n snd rcv hd hn hle _ ih =>
    refine .unknown (stays ho) (decoded ho hd nofun) hn (longer ho hle) ?_
    rw [EndState.unknownEvent_receive ho hn hle, ← EndState.receive_consume ho hle]
    exact ih h'
  | @message e _ ho n snd rcv k prm hd hle _ ih =>
    refine .message (stays ho) (decoded ho hd nofun) (longer ho hle) ?_
    rw [cursor ho, ← EndState.receive_consume ho hle]
    exact ih h'

/-! ## Runs -/

/-- A run of the machine leads from one state to another. -/
def Reaches (s t : State) : Prop := ∃ k, Host.Core.run ⟨State, Fault, Refusal, step, State.reset⟩ k s = .next t

theorem Reaches.refl (s : State) : Reaches s s := ⟨0, rfl⟩

theorem Reaches.of_step {s t u : State} (h : step s = .next t) (h' : Reaches t u) : Reaches s u := by
  obtain ⟨k, hk⟩ := h'
  refine ⟨k + 1, ?_⟩
  rw [run_succ, h]
  exact hk

theorem Reaches.trans {s t u : State} (h : Reaches s t) (h' : Reaches t u) : Reaches s u := by
  obtain ⟨j, hj⟩ := h
  obtain ⟨k, hk⟩ := h'
  exact ⟨j + k, (run_add hj).trans hk⟩

/-- The machine came to rest before the given inputs, with the given harness part. -/
def ComesToRest (s : State) (inputs : List Input) (e : EndState) : Prop :=
  ∃ t, Reaches s t ∧ t.task = .idle ∧ t.inputs = inputs ∧ t.cfg = s.cfg ∧ t.endState = e

theorem runsTo_of_comesToRest {s : State} {e : EndState} (h : ComesToRest s [] e) : RunsTo s e := by
  obtain ⟨t, ⟨k, hk⟩, hidle, hinputs, -, hend⟩ := h
  exact ⟨k, t, hk, hidle, hinputs, hend⟩

theorem ComesToRest.of_step {s t : State} {inputs : List Input} {e : EndState} (h : step s = .next t)
    (hrest : ComesToRest t inputs e) : ComesToRest s inputs e := by
  obtain ⟨u, hreach, hidle, hinputs, hcfg, hend⟩ := hrest
  exact ⟨u, .of_step h hreach, hidle, hinputs, hcfg.trans (noStepChangesTheConfiguration.1 s t h), hend⟩

theorem comesToRest_of_idle {s : State} (ht : s.task = .idle) : ComesToRest s s.inputs s.endState :=
  ⟨s, .refl s, ht, rfl, rfl, rfl⟩

/-- R276, R277: the passes of a RECV, one a step; the bound is tested where they end. -/
theorem comesToRest_of_drains {s : State} {e : EndState} (hw : s.cfg.wf = true) (ht : s.task = .receiving)
    (h : Drains s.cfg s.endState e) (hroom : ∀ n, s.cfg.rxMax = some n → e.rx.length ≤ n) :
    ComesToRest s s.inputs e := by
  have hstep : step s = pollOnce s.rx s := step_of_polling (by simp [ht])
  generalize hc : s.cfg = c at h
  generalize hs : s.endState = e₀ at h
  induction h generalizing s with
  | closed hconn =>
    subst hc hs
    exact .of_step (hstep.trans (pollOnce_closed hw hconn _)) (comesToRest_of_idle (s := { s with task := .idle }) rfl)
  | wanting ho hrx =>
    subst hc hs
    refine .of_step (hstep.trans (pollOnce_incomplete hw ho hrx)) ?_
    rw [endPoll_of_fits fun _ => hroom]
    exact comesToRest_of_idle (s := { s with task := .idle }) rfl
  | corrupt ho hd =>
    subst hc hs
    exact .of_step (hstep.trans (pollOnce_bad hw ho hd)) (comesToRest_of_idle (s := closedWith s _) rfl)
  | @unknown _ _ ho n snd rcv hd _ _ _ ih =>
    subst hc hs
    exact .of_step (hstep.trans (pollOnce_noRow hw ho hd))
      (ih (s := skipped s n snd rcv _) hw ht hroom (step_of_polling (by simp [skipped, ht])) rfl rfl)
  | @message _ _ ho n snd rcv k prm hd _ _ ih =>
    subst hc hs
    exact .of_step (hstep.trans (pollOnce_hit hw ho hd))
      (ih (s := delivered s n ⟨k, prm, snd, rcv⟩) hw ht hroom (step_of_polling (by simp [delivered, ht])) rfl rfl)

/-- R276: a RECV from rest to rest. -/
theorem comesToRest_of_recv {s : State} (hw : s.cfg.wf = true) (ht : s.task = .idle) {bytes : List Byte}
    {rest : List Input} (hi : s.inputs = .recv bytes :: rest) {e : EndState}
    (h : Drains s.cfg (s.endState.receive bytes) e) (hroom : ∀ n, s.cfg.rxMax = some n → e.rx.length ≤ n) :
    ComesToRest s rest e := by
  have hstep := (step_of_recv ht hi).trans (whenConfigured_wf hw _)
  cases ho : s.conn with
  | closed =>
    have hc : s.endState.conn = .closed := ho
    rw [EndState.receive_closed hc] at h
    obtain rfl := h.eq_of_closed hc
    exact .of_step (hstep.trans (runRecv_closed (s := s.withInputs rest) ho bytes))
      (comesToRest_of_idle (s := s.withInputs rest) ht)
  | opened =>
    rw [EndState.receive_opened (e := s.endState) ho] at h
    exact .of_step (hstep.trans (runRecv_opened (s := s.withInputs rest) ho bytes))
      (comesToRest_of_drains (s := ((s.withInputs rest).receive bytes).withTask .receiving) hw rfl h hroom)

/-- RECVs one after the other come to rest where one RECV of all their bytes does. -/
theorem runsTo_of_recvs {s : State} (chunks : List (List Byte)) (hw : s.cfg.wf = true) (ht : s.task = .idle)
    (hmax : s.cfg.rxMax = none) (hrests : Drains s.cfg s.endState s.endState) (hi : s.inputs = chunks.map .recv) :
    ∃ e, Drains s.cfg (s.endState.receive chunks.flatten) e ∧ RunsTo s e := by
  induction chunks generalizing s with
  | nil => exact ⟨s.endState, by rwa [List.flatten_nil, EndState.receive_nil], 0, s, rfl, ht, hi, rfl⟩
  | cons bytes chunks ih =>
    obtain ⟨e₁, h₁⟩ := exists_drains hw (s.endState.receive bytes)
    obtain ⟨t, hreach, hidle, hinputs, hcfg, rfl⟩ :=
      comesToRest_of_recv hw ht hi h₁ fun n hn => absurd (hmax.symm.trans hn) nofun
    obtain ⟨e, h, k, u, hrun, hu⟩ := ih (hcfg ▸ hw) hidle (hcfg ▸ hmax) (hcfg ▸ h₁.rests) hinputs
    refine ⟨e, ?_, ?_⟩
    · rw [List.flatten_cons, EndState.receive_append]
      exact h₁.receive (hcfg ▸ h)
    · obtain ⟨j, hj⟩ := hreach
      exact ⟨j + k, u, (run_add hj).trans hrun, hu⟩

/-- Settles O54: both runs drain the same bytes. -/
theorem fragmentationDoesNotMatter : Obligations.FragmentationDoesNotMatter := by
  intro s chunks h ht hmax
  have hrests : Drains s.cfg s.endState s.endState := by
    cases ho : s.conn with
    | closed => exact .closed ho
    | opened => exact .wanting ho (h.idleUnframed ht)
  obtain ⟨e, hdrain, hruns⟩ :=
    runsTo_of_recvs (s := { s with inputs := chunks.map .recv }) chunks h.configured ht hmax hrests rfl
  have hwhole := comesToRest_of_recv (s := { s with inputs := [.recv chunks.flatten] }) h.configured ht rfl hdrain
    fun n hn => absurd (hmax.symm.trans hn) nofun
  exact ⟨e, runsTo_of_comesToRest hwhole, hruns⟩

/-! ## A stream of messages -/

theorem eventsFrom_cons {i : Instr} {m : Message} (hm : typedMessage (shadowedBy i) = some m) (offset : Nat)
    (rest : List Instr) :
    eventsFrom offset (i :: rest) =
      .msg offset m.sender m.receiver m.kind m.params :: eventsFrom (offset + (wireBytes i).length) rest := by
  rw [eventsFrom, hm]
  rfl

theorem exists_typed_shadowedBy {i : Instr} (hi : wireBytes i ≠ []) : ∃ m, typedMessage (shadowedBy i) = some m := by
  obtain ⟨j, e, h, p, prm, hmsg, -⟩ := shadowedBy_firstRow hi
  exact ⟨_, hmsg.typed⟩

/-- R277: the messages of a stream, one a pass. -/
theorem drains_messages {c : Config} (hw : c.wf = true) (hreg : c.registry = refRegistry) {msgs : List Instr}
    (hmsgs : ∀ i ∈ msgs, i.wf = true ∧ wireBytes i ≠ []) {e : EndState} (ho : e.conn = .opened)
    (hrx : e.rx = msgs.flatMap wireBytes) :
    Drains c e ⟨[], e.cur + (msgs.flatMap wireBytes).length, .opened, e.tx, e.events ++ eventsFrom e.cur msgs⟩ := by
  induction msgs generalizing e with
  | nil =>
    obtain ⟨rx, cur, conn, tx, events⟩ := e
    obtain rfl : rx = [] := hrx
    obtain rfl : conn = .opened := ho
    simpa [eventsFrom] using Drains.wanting (c := c) (e := ⟨[], cur, .opened, tx, events⟩) rfl List.not_mem_nil
  | cons i msgs ih =>
    obtain ⟨⟨hwf, hne⟩, hrest⟩ := List.forall_mem_cons.mp hmsgs
    obtain ⟨m, hm⟩ := exists_typed_shadowedBy hne
    rw [List.flatMap_cons] at hrx
    have hdec := vcuDecode_message hw hreg hwf hm (msgs.flatMap wireBytes)
    rw [← hrx] at hdec
    refine .message ho hdec (by rw [hrx, List.length_append]; omega) ?_
    have hnext := ih (e := e.consume (wireBytes i).length (.msg e.cur m.sender m.receiver m.kind m.params)) hrest ho
      (by rw [EndState.consume, hrx]; exact List.drop_left)
    rw [List.flatMap_cons, List.length_append, eventsFrom_cons hm, ← Nat.add_assoc]
    rwa [EndState.consume, List.append_assoc] at hnext

/-- Settles O55: one RECV drains the stream of its messages. -/
theorem backToBackMessagesAreAllDelivered : Obligations.BackToBackMessagesAreAllDelivered := by
  rintro s msgs ⟨hw, hreg, ho⟩ ht hrx hmsgs
  have hdrain := drains_messages hw hreg hmsgs (e := ⟨msgs.flatMap wireBytes, s.cur, .opened, s.tx, s.events⟩) rfl rfl
  have hreceive : s.endState.receive (msgs.flatMap wireBytes) =
      ⟨msgs.flatMap wireBytes, s.cur, .opened, s.tx, s.events⟩ := by
    rw [EndState.receive_opened (e := s.endState) ho, State.endState, hrx, ho, List.nil_append]
  exact runsTo_of_comesToRest (comesToRest_of_recv (s := { s with inputs := [.recv (msgs.flatMap wireBytes)] }) hw ht
    rfl (hreceive.symm ▸ hdrain) fun _ _ => Nat.zero_le _)

end Sys2Proof.Machine
